-- ==== Sys2Proof/Word.lean ====
section
/-! DEFINITION. The word types of the block: a byte, and nothing else that the spec does not name. -/

namespace Sys2Proof

/-- A byte is 8 bits, bit 0 the least significant (R9). -/
abbrev Byte := BitVec 8

/-- The data of the register port, 64 bits in both directions (R46, R180). -/
abbrev PortData := BitVec 64

end Sys2Proof
end

