-- ==== Sys2Proof/Config.lean ====
section
/-! DEFINITION. The constants of R6 and R7, and the one free value the spec leaves open. -/

namespace Sys2Proof.Config

/-- Header bytes without session id (R6). -/
abbrev hdrShort : Nat := 8

/-- Header bytes with session id (R6). -/
abbrev hdrLong : Nat := 16

/-- Bytes of an IE's mini-header, "2+2+1 header" (R6). -/
abbrev ieHdr : Nat := 5

/-- Bit of the flags byte that says a session id is present (R6). -/
abbrev sBit : Nat := 2

/-- Lowest bit of `version` in the flags byte: bits 7 to 5 (R6). -/
abbrev verLo : Nat := 5

/-- Capacity of the datagram buffer (R7, R60). -/
abbrev bufBytes : Nat := 65536

/-- The payload ends at offset `length + lenBias`. The spec's value is 0, the decode contract's reading (R7, R100,
conflict C1); 4 is the encode contract's reading and is never the block's. DESIGN CHOICE of the spec (D16), log
entry 10: unsafe if a real block took the other reading. -/
abbrev lenBias : Nat := 0

/-- FREE VALUE, log entry 1: what the byte of `BUF` at an offset reads as while no `LOAD` has written it since
reset number `epoch` (R20, R74: "any value", fixed until written). It has no body: nothing can be proved of it. -/
opaque unloadedByte (epoch : Nat) (offset : Nat) : Byte

end Sys2Proof.Config
end

