-- ==== Sys2Proof/Syntax.lean ====
section
/-! DEFINITION. The instructions of the block: the three wire records, the host's commands and reads, and the named
codes (R15, R99), one constructor per row of the opcode table; and the two things an instruction is read from besides
bytes: an access on a host port, and a named code standing alone. -/

namespace Sys2Proof

/-- One access of the host on one of its two ports (R180). A register number is any natural: the spec gives register
numbers no width (log entry 7). -/
inductive HostAccess where
  /-- A write on the buffer port: byte `b` at offset `a`. -/
  | bufWrite (a : BitVec 16) (b : Byte)
  /-- A read on the buffer port of the byte at offset `a`. -/
  | bufRead (a : BitVec 16)
  /-- `WRREG(k, v)` on the register port. -/
  | regWrite (k : Nat) (v : PortData)
  /-- `RDREG(k)` on the register port. -/
  | regRead (k : Nat)
  deriving DecidableEq, Repr

/-- The field in which a named code stands (the named-code rows' `format`, R92, R93). -/
inductive CodeField where
  /-- The byte at offset 1 of a header. -/
  | messageType
  /-- The 16-bit type of an IE. -/
  | ieType
  /-- The value byte of an IE of type 19. -/
  | causeValue
  deriving DecidableEq, Repr

/-- The instructions. A record keeps every bit of its fixed part, the ignored ones too (log entry 16): `flags` is the
byte of R83, `instByte` the byte of R85, and a command keeps the whole write data `v` of `CMD` (R95). -/
inductive Instr where
  /-- `HDR8`, a header without session id (R81, R113). -/
  | hdr8 (flags mtype : Byte) (length : BitVec 16) (seq : BitVec 24) (spare : Byte)
  /-- `HDR16`, a header with session id (R82, R114). -/
  | hdr16 (flags mtype : Byte) (length : BitVec 16) (seid : BitVec 64) (seq : BitVec 24) (spare : Byte)
  /-- `IE`, the mini-header of one record (R84, R85, R133). -/
  | ie (type length : BitVec 16) (instByte : Byte)
  /-- `NOP`, `WRREG(0x00, v)` with `v[1:0]` = 0 (R186). -/
  | nop (v : PortData)
  /-- `START`, `WRREG(0x00, v)` with `v[1:0]` = 1 (R183). -/
  | start (v : PortData)
  /-- `NEXT`, `WRREG(0x00, v)` with `v[1:0]` = 2 (R184). -/
  | next (v : PortData)
  /-- `CLEAR`, `WRREG(0x00, v)` with `v[1:0]` = 3 (R185). -/
  | clear (v : PortData)
  /-- `LOAD(a, b)` (R181). -/
  | load (a : BitVec 16) (b : Byte)
  /-- `SETLEN(n)`, `WRREG(0x02, n)` (R182). -/
  | setlen (n : PortData)
  /-- `RDREG(k)` (R187). -/
  | rdreg (k : Nat)
  /-- `RDBUF(a)` (R188). -/
  | rdbuf (a : BitVec 16)
  /-- `MSGTYPE_1`, Heartbeat Request (R92). -/
  | msgtype1
  /-- `MSGTYPE_2`, Heartbeat Response (R92). -/
  | msgtype2
  /-- `MSGTYPE_50`, Association Setup Request and Session Establishment Request (R92). -/
  | msgtype50
  /-- `MSGTYPE_51`, Association Setup Response and Session Establishment Response (R92). -/
  | msgtype51
  /-- `IETYPE_1`, Create-PDR (R93). -/
  | ietype1
  /-- `IETYPE_3`, Create-FAR (R93). -/
  | ietype3
  /-- `IETYPE_19`, Cause (R93). -/
  | ietype19
  /-- `IETYPE_60`, NodeID (R93). -/
  | ietype60
  /-- `IETYPE_96`, RecoveryTimeStamp (R93). -/
  | ietype96
  /-- `CAUSE_ACCEPTED`, Cause value 1, request accepted (R93). -/
  | causeAccepted
  deriving DecidableEq, Repr

end Sys2Proof
end

