-- ==== Sys2Proof/Decode.lean ====
section
/-! DEFINITION. Byte order (R10, R62), the decoder and the encoder of every row of the opcode table (R80 to R99), and
the words by which the host asks about rows. -/

namespace Sys2Proof

/-- `be16`: two bytes, the one at the lower offset the more significant (R10, R62). -/
def be16 (b1 b0 : Byte) : BitVec 16 := b1 ++ b0

/-- `be24` (R10, R62). -/
def be24 (b2 b1 b0 : Byte) : BitVec 24 := b2 ++ b1 ++ b0

/-- `be64` (R10, R62). -/
def be64 (b7 b6 b5 b4 b3 b2 b1 b0 : Byte) : BitVec 64 :=
  b7 ++ b6 ++ b5 ++ b4 ++ b3 ++ b2 ++ b1 ++ b0

/-- Byte `k` of a field, counted from the least significant: bits `[8k+7 : 8k]` (R63). -/
def fieldByte {w : Nat} (k : Nat) (v : BitVec w) : Byte := v.extractLsb' (8 * k) 8

/-- The two bytes of a 16-bit field, first on the wire first. -/
def bytes16 (v : BitVec 16) : List Byte := [fieldByte 1 v, fieldByte 0 v]

/-- The three bytes of a 24-bit field, first on the wire first. -/
def bytes24 (v : BitVec 24) : List Byte := [fieldByte 2 v, fieldByte 1 v, fieldByte 0 v]

/-- The eight bytes of a 64-bit field, first on the wire first. -/
def bytes64 (v : BitVec 64) : List Byte :=
  [fieldByte 7 v, fieldByte 6 v, fieldByte 5 v, fieldByte 4 v, fieldByte 3 v, fieldByte 2 v, fieldByte 1 v, fieldByte 0 v]

/-- Bits [1:0] of the write data of `CMD`, which select the command (R45, R95). -/
def commandBits (v : PortData) : BitVec 2 := v.extractLsb' 0 2

/-- The session-present bit of a flags byte (R83). -/
def sessionBit (flags : Byte) : Bool := flags.getLsbD Config.sBit

/-- `version`, bits 7 to 5 of the flags byte (R83). -/
def versionOf (flags : Byte) : BitVec 3 := flags.extractLsb' Config.verLo 3

/-- `instance`, bits 3 to 0 of the instance byte, whatever bits 7 to 4 are (R85). -/
def instanceOf (instByte : Byte) : BitVec 4 := instByte.extractLsb' 0 4

/-- What an instruction is read from, with where it stands, since the place decides what kind of record it is (R80,
R99): bytes at offset 0 of the datagram, bytes of the payload, an access on a host port, or a named code standing alone
in its field. -/
inductive Encoded where
  | header (bytes : List Byte)
  | element (bytes : List Byte)
  | access (a : HostAccess)
  | code (f : CodeField) (v : BitVec 16)
  deriving DecidableEq, Repr

/-- Why something is not the encoding of an instruction. -/
inductive DecodeError where
  /-- Fewer than 8 bytes where a header stands. -/
  | headerBelow8
  /-- Flags bit 2 is 1 and there are fewer than 16 bytes. -/
  | headerBelow16
  /-- Fewer than 5 bytes where an IE stands. -/
  | elementBelow5
  /-- A write to register `k`, which is neither `CMD` nor `DLEN`: a rejected access, no instruction (R189). -/
  | writeToOther (k : Nat)
  /-- A value that R92 and R93 do not name. -/
  | unnamedCode
  deriving DecidableEq, Repr

/-- The header record at the front of the bytes: `HDR8` or `HDR16` by bit 2 of the first byte and nothing else (R80,
R81, R82, R86). Later bytes are not looked at. -/
def decodeHeaderRecord : List Byte → Except DecodeError Instr
  | f :: t :: l1 :: l0 :: x0 :: x1 :: x2 :: x3 :: rest =>
    if sessionBit f then
      match rest with
      | x4 :: x5 :: x6 :: x7 :: q2 :: q1 :: q0 :: p :: _ =>
        .ok (.hdr16 f t (be16 l1 l0) (be64 x0 x1 x2 x3 x4 x5 x6 x7) (be24 q2 q1 q0) p)
      | _ => .error .headerBelow16
    else .ok (.hdr8 f t (be16 l1 l0) (be24 x0 x1 x2) x3)
  | _ => .error .headerBelow8

/-- The mini-header at the front of the bytes; every 5 bytes are one (R84, R99). -/
def decodeElementRecord : List Byte → Except DecodeError Instr
  | t1 :: t0 :: l1 :: l0 :: i :: _ => .ok (.ie (be16 t1 t0) (be16 l1 l0) i)
  | _ => .error .elementBelow5

/-- A write of `CMD` is one of four commands, by `v[1:0]` (R45, R95). -/
def decodeCommand (v : PortData) : Instr :=
  if commandBits v = 0 then .nop v
  else if commandBits v = 1 then .start v
  else if commandBits v = 2 then .next v
  else .clear v

/-- The command or read that an access stands for (R95, R180); a write to any register but `CMD` (0x00) and `DLEN`
(0x02) stands for none (R189). -/
def decodeAccess : HostAccess → Except DecodeError Instr
  | .bufWrite a b => .ok (.load a b)
  | .bufRead a => .ok (.rdbuf a)
  | .regRead k => .ok (.rdreg k)
  | .regWrite k v =>
    if k = 0x00 then .ok (decodeCommand v)
    else if k = 0x02 then .ok (.setlen v)
    else .error (.writeToOther k)

/-- The named codes of R92 and R93. They are labels, not decode conditions: no record's decoding looks at them (R96). -/
def decodeCode (f : CodeField) (v : BitVec 16) : Except DecodeError Instr :=
  match f with
  | .messageType =>
    if v = 1 then .ok .msgtype1
    else if v = 2 then .ok .msgtype2
    else if v = 50 then .ok .msgtype50
    else if v = 51 then .ok .msgtype51
    else .error .unnamedCode
  | .ieType =>
    if v = 1 then .ok .ietype1
    else if v = 3 then .ok .ietype3
    else if v = 19 then .ok .ietype19
    else if v = 60 then .ok .ietype60
    else if v = 96 then .ok .ietype96
    else .error .unnamedCode
  | .causeValue => if v = 1 then .ok .causeAccepted else .error .unnamedCode

/-- The decoder: total, rejecting by name. -/
def decode : Encoded → Except DecodeError Instr
  | .header bs => decodeHeaderRecord bs
  | .element bs => decodeElementRecord bs
  | .access a => decodeAccess a
  | .code f v => decodeCode f v

/-- The encoder, from the same tables (R81, R82, R84, R92, R93, R95). -/
def encode : Instr → Encoded
  | .hdr8 flags mtype length seq spare =>
    .header (flags :: mtype :: (bytes16 length ++ bytes24 seq ++ [spare]))
  | .hdr16 flags mtype length seid seq spare =>
    .header (flags :: mtype :: (bytes16 length ++ bytes64 seid ++ bytes24 seq ++ [spare]))
  | .ie type length instByte => .element (bytes16 type ++ bytes16 length ++ [instByte])
  | .nop v => .access (.regWrite 0x00 v)
  | .start v => .access (.regWrite 0x00 v)
  | .next v => .access (.regWrite 0x00 v)
  | .clear v => .access (.regWrite 0x00 v)
  | .load a b => .access (.bufWrite a b)
  | .setlen n => .access (.regWrite 0x02 n)
  | .rdreg k => .access (.regRead k)
  | .rdbuf a => .access (.bufRead a)
  | .msgtype1 => .code .messageType 1
  | .msgtype2 => .code .messageType 2
  | .msgtype50 => .code .messageType 50
  | .msgtype51 => .code .messageType 51
  | .ietype1 => .code .ieType 1
  | .ietype3 => .code .ieType 3
  | .ietype19 => .code .ieType 19
  | .ietype60 => .code .ieType 60
  | .ietype96 => .code .ieType 96
  | .causeAccepted => .code .causeValue 1

/-- The low `n` bytes of a number, the most significant first (R99 reads a record's bits as one number whose first byte
is the most significant). -/
def bytesBE : Nat → Nat → List Byte
  | 0, _ => []
  | n + 1, w => BitVec.ofNat 8 (w / 256 ^ n) :: bytesBE n w

/-- Whether a 64-bit table word is read as write data of `CMD` and not as an `HDR8` record, two rows of one width: it is
when its bits 63 to 2 are all 0, or when bit 2 of its first byte says it is no `HDR8` (log entry 9). -/
def readsAsCommand (w : Nat) : Bool := decide (w < 4) || w.testBit 58

/-- What a row's word stands for, told by the width of the row alone (log entry 9): the table numbers a record's bits as
one big-endian number, a command's as the write data. -/
def tableEncoded (nbits w : Nat) : Option Encoded :=
  match nbits with
  | 8 => some (.code .messageType (BitVec.ofNat 16 w))
  | 16 => some (.code .ieType (BitVec.ofNat 16 w))
  | 40 => some (.element (bytesBE 5 w))
  | 64 => if readsAsCommand w then some (.access (.regWrite 0x00 (BitVec.ofNat 64 w))) else some (.header (bytesBE 8 w))
  | 128 => some (.header (bytesBE 16 w))
  | _ => none

/-- The instruction the decoder reads from a row's word (log entry 9). -/
def decodeTableWord (nbits w : Nat) : Option Instr :=
  match tableEncoded nbits w with
  | none => none
  | some e =>
    match decode e with
    | .ok i => some i
    | .error _ => none

end Sys2Proof
end

