-- ==== Sys2Proof/Machine/State.lean ====
section
/-! DEFINITION. The state of the block (10_state.md R20 to R52), the host's side of it as data, the state after reset
(R271), and the two ways a step can stop. -/

namespace Sys2Proof.Machine

/-- `PHASE` (R22): the five legal values; 5 to 7 never occur and are left out (U16, log entry 17). -/
inductive Phase where
  | idle
  | hdr
  | ies
  | done
  | error
  deriving DecidableEq, Repr

/-- `ERR` (R40): the four legal values; 4 to 7 never occur and are left out (U16, log entry 17). -/
inductive ErrCode where
  | none
  | short8
  | short16
  | badLen
  deriving DecidableEq, Repr

/-- One turn of the total order of steps (R11, R180). -/
inductive Turn where
  /-- The parser takes its enabled step, if it has one. -/
  | parser
  /-- The host makes one access. -/
  | host (a : HostAccess)
  /-- A named code stands alone; it reaches no port and selects nothing (R96, R99; log entry 8). -/
  | label (f : CodeField) (v : BitVec 16)
  /-- The reset input is asserted and released (R270). -/
  | reset
  deriving DecidableEq, Repr

/-- The loaded bytes of `BUF`: offsets strictly rising, every entry a byte that a `LOAD` wrote since reset. An unlisted
offset holds no loaded byte. -/
abbrev Memory := List Host.Cell

/-- All the state the spec gives the block, and, after `proto`, the model's own four fields. -/
structure State where
  /-- `BUF` (R20), its loaded bytes. -/
  buf : Memory
  /-- `DLEN` (R21). -/
  dlen : BitVec 17
  /-- `PHASE` (R22). -/
  phase : Phase
  /-- `OFF` (R23). -/
  off : BitVec 16
  /-- `END` (R24). -/
  endOff : BitVec 16
  /-- `H_VALID` (R25). -/
  hValid : Bool
  /-- `H_VER` (R26). -/
  hVer : BitVec 3
  /-- `H_S` (R27). -/
  hS : Bool
  /-- `H_TYPE` (R28). -/
  hType : BitVec 8
  /-- `H_LEN` (R29). -/
  hLen : BitVec 16
  /-- `H_SEID` (R30). -/
  hSeid : BitVec 64
  /-- `H_SEQ` (R31). -/
  hSeq : BitVec 24
  /-- `H_HLEN` (R32). -/
  hHlen : BitVec 5
  /-- `P_LEN` (R33). -/
  pLen : BitVec 16
  /-- `IE_VALID` (R34). -/
  ieValid : Bool
  /-- `IE_TYPE` (R35). -/
  ieType : BitVec 16
  /-- `IE_LEN` (R36). -/
  ieLen : BitVec 16
  /-- `IE_INST` (R37). -/
  ieInst : BitVec 4
  /-- `IE_VOFF` (R38). -/
  ieVoff : BitVec 16
  /-- `IE_COUNT` (R39). -/
  ieCount : BitVec 16
  /-- `ERR` (R40). -/
  err : ErrCode
  /-- `CLAMP` (R41). -/
  clamp : Bool
  /-- `PROTO` (R42). -/
  proto : Bool
  /-- The model's own (log entry 3): the turns to come, in order. When none is left only the parser moves. -/
  schedule : List Turn
  /-- The model's own (log entry 6): what the register port returned for the last `RDREG` (R187). -/
  regData : Option PortData
  /-- The model's own (log entry 6): what the buffer port returned for the last `RDBUF` (R188). -/
  bufData : Option Byte
  /-- The model's own (log entry 2): how many reset events there have been. -/
  epoch : Nat
  deriving DecidableEq, Repr

/-- Why the machine stops with a fault. -/
inductive Fault where
  /-- Raised by the parser's fetch when `MemRead` would leave the datagram, where R11 does not define it. R166 says no
  reachable state asks for that. SAFE: the model stops where the spec gives no effect (log entry 13). -/
  | memReadUndefined
  /-- Raised by the parser's turn when the bytes it fetched are no record. The fetch reads exactly a record's bytes, so
  no state raises it. SAFE: it can only make a claim unprovable (log entry 18). -/
  | recordUndecodable
  deriving DecidableEq, Repr

/-- Why the machine refuses an instruction. -/
inductive Refusal where
  /-- Raised by `exec` for an instruction whose meaning is not written yet; no arm is left that raises it. SAFE. -/
  | notModelled (mnemonic : String)
  deriving DecidableEq, Repr

/-- The block right after reset (R271), with no turn scheduled and no read answered. -/
def State.reset : State where
  buf := []
  dlen := 0
  phase := .idle
  off := 0
  endOff := 0
  hValid := false
  hVer := 0
  hS := false
  hType := 0
  hLen := 0
  hSeid := 0
  hSeq := 0
  hHlen := 0
  pLen := 0
  ieValid := false
  ieType := 0
  ieLen := 0
  ieInst := 0
  ieVoff := 0
  ieCount := 0
  err := .none
  clamp := false
  proto := false
  schedule := []
  regData := none
  bufData := none
  epoch := 0

end Sys2Proof.Machine
end

