-- ==== Sys2Proof/Machine/Operands.lean ====
section
/-! DEFINITION. The length-field validator and offset calculator: every test on a length and every offset, once
(42_length_offset.md R150 to R160, R168), and the fields of a decoded header and of a record. All quantities are
naturals (R163). The three functions that `LEN_BIAS` enters take it as their first argument (D16). -/

namespace Sys2Proof.Machine

/-- `HdrLen(s)` (R150). -/
def hdrLen (s : Bool) : Nat := if s then Config.hdrLong else Config.hdrShort

/-- `Short8(n)` (R151). -/
def short8 (n : Nat) : Bool := decide (n < Config.hdrShort)

/-- `Short16(n, s)` (R152). -/
def short16 (n : Nat) (s : Bool) : Bool := s && decide (n < Config.hdrLong)

/-- `BadLen(length, hlen)` (R153). -/
def badLen (bias length hlen : Nat) : Bool := decide (length + bias < hlen)

/-- `PayloadEnd(length, n)` (R154). -/
def payloadEnd (bias length n : Nat) : Nat := min (length + bias) n

/-- `PayloadLen(end, hlen)` (R155). -/
def payloadLen (endOff hlen : Nat) : Nat := endOff - hlen

/-- `CLAMP` = (`length > n`) (R168). -/
def clamped (bias length n : Nat) : Bool := decide (n < length + bias)

/-- `Remaining(end, off)` (R156). Only states that no run reaches have `off` above `end` (R164); there nothing remains
(log entry 20). -/
def remaining (endOff off : Nat) : Nat := endOff - off

/-- `IeHdrFits(rem)` (R157). -/
def ieHdrFits (rem : Nat) : Bool := decide (Config.ieHdr ≤ rem)

/-- `IeValueFits(rem, l)` (R158). -/
def ieValueFits (rem l : Nat) : Bool := decide (l ≤ rem - Config.ieHdr)

/-- `ValueOff(off)` (R159). -/
def valueOff (off : Nat) : Nat := off + Config.ieHdr

/-- `NextOff(off, l)` (R160). -/
def nextOff (off l : Nat) : Nat := off + Config.ieHdr + l

/-- The fields of a decoded header, R110's `fields`. -/
structure HeaderFields where
  ver : BitVec 3
  s : Bool
  mtype : Byte
  length : BitVec 16
  seid : Option (BitVec 64)
  seq : BitVec 24
  hlen : Nat
  deriving DecidableEq, Repr

/-- The results of decoding a header (R110, R111). -/
inductive HeaderResult where
  /-- SHORT8 or SHORT16: no field at all. -/
  | invalid (c : ErrCode)
  /-- The fields were all there and `length` is smaller than the header. -/
  | badLength (f : HeaderFields)
  /-- A Message. -/
  | ok (f : HeaderFields) (payOff payEnd : Nat) (clamp : Bool)
  deriving DecidableEq, Repr

/-- Steps 1, 3, 5 and 6 of `DecodeHeader` (R110) on the header's fields, in that order (R248): `n` is the datagram's
byte count. -/
def judgeHeader (bias n : Nat) (f : HeaderFields) : HeaderResult :=
  if short8 n then .invalid .short8
  else if short16 n f.s then .invalid .short16
  else if badLen bias f.length.toNat f.hlen then .badLength f
  else .ok f f.hlen (payloadEnd bias f.length.toNat n) (clamped bias f.length.toNat n)

/-- The fields of an `HDR8` record (R83, R113): no session id. -/
def fieldsOfHdr8 (flags mtype : Byte) (length : BitVec 16) (seq : BitVec 24) : HeaderFields :=
  { ver := versionOf flags, s := false, mtype := mtype, length := length, seid := none, seq := seq, hlen := hdrLen false }

/-- The fields of an `HDR16` record (R83, R114): a session id, of whatever value. -/
def fieldsOfHdr16 (flags mtype : Byte) (length : BitVec 16) (seid : BitVec 64) (seq : BitVec 24) : HeaderFields :=
  { ver := versionOf flags, s := true, mtype := mtype, length := length, seid := some seid, seq := seq,
    hlen := hdrLen true }

end Sys2Proof.Machine
end

