-- ==== Sys2Proof/Machine/Flags.lean ====
section
/-! DEFINITION. The views of the state: `BUSY` and `STATUS` (R44), the level outputs (R47), and the register map as the
host reads it (R46, R187). None has storage of its own. -/

namespace Sys2Proof.Machine

/-- The number of each phase (R22). -/
def Phase.code : Phase → BitVec 3
  | .idle => 0
  | .hdr => 1
  | .ies => 2
  | .done => 3
  | .error => 4

/-- The number of each cause (R40). -/
def ErrCode.code : ErrCode → BitVec 3
  | .none => 0
  | .short8 => 1
  | .short16 => 2
  | .badLen => 3

/-- `BUSY`: a parser step is enabled (R44). -/
def busy (s : State) : Bool :=
  decide (s.phase = .hdr) || (decide (s.phase = .ies) && !s.ieValid)

/-- `STATUS`, from bit 15 down to bit 0 (R44). -/
def status (s : State) : BitVec 16 :=
  0#5 ++ BitVec.ofBool (busy s) ++ BitVec.ofBool s.proto ++ BitVec.ofBool s.clamp ++ s.err.code
    ++ BitVec.ofBool s.hValid ++ BitVec.ofBool s.ieValid ++ s.phase.code

/-- The output `ie_valid` (R47). -/
def outIeValid (s : State) : Bool := s.ieValid

/-- The output `done` (R47). -/
def outDone (s : State) : Bool := decide (s.phase = .done)

/-- The output `error` (R47). -/
def outError (s : State) : Bool := decide (s.phase = .error)

/-- The register map (R46) as `RDREG(k)` returns it, zero-extended to 64 bits; `CMD` and every unassigned number read 0
(R45, R187). -/
def readRegister (s : State) (k : Nat) : PortData :=
  match k with
  | 0x01 => (status s).setWidth 64
  | 0x02 => s.dlen.setWidth 64
  | 0x03 => s.off.setWidth 64
  | 0x04 => s.endOff.setWidth 64
  | 0x08 => s.hVer.setWidth 64
  | 0x09 => (BitVec.ofBool s.hS).setWidth 64
  | 0x0A => s.hType.setWidth 64
  | 0x0B => s.hLen.setWidth 64
  | 0x0C => s.hSeid
  | 0x0D => s.hSeq.setWidth 64
  | 0x0E => s.hHlen.setWidth 64
  | 0x0F => s.pLen.setWidth 64
  | 0x10 => s.ieType.setWidth 64
  | 0x11 => s.ieLen.setWidth 64
  | 0x12 => s.ieInst.setWidth 64
  | 0x13 => s.ieVoff.setWidth 64
  | 0x14 => s.ieCount.setWidth 64
  | _ => 0

end Sys2Proof.Machine
end

