-- ==== Sys2Proof/Machine/Ops.lean ====
section
/-! DEFINITION. The named operations over the buffer and the registers, the one way of taking a malformed result
(`raise Malformed`, R244), the one way back (`CLEAR`, R185), the rejected access (R190) and the reset event (R270). -/

namespace Sys2Proof.Machine

/-- The byte a `LOAD` wrote at an offset, if any did. -/
def Memory.cell? : Memory → Nat → Option Byte
  | [], _ => none
  | (a, b) :: m, x => if a = x then some b else Memory.cell? m x

/-- The memory with byte `v` at offset `x`, in its place in the rising order. -/
def Memory.put : Memory → Nat → Byte → Memory
  | [], x, v => [(x, v)]
  | (a, b) :: m, x, v =>
    if x < a then (x, v) :: (a, b) :: m
    else if x = a then (x, v) :: m
    else (a, b) :: Memory.put m x v

/-- The canonical form: offsets strictly rising and inside the buffer. An unlisted offset reads as no loaded byte, which
no entry can equal. -/
abbrev Memory.wf (m : Memory) : Prop :=
  m.Pairwise (fun c d => c.1 < d.1) ∧ ∀ c ∈ m, c.1 < Config.bufBytes

/-- `BUF[a]` (R20): the byte of the latest accepted `LOAD` to that offset (R70), or, where there was none since reset,
an unspecified byte that stays the same until written (R74, log entry 1). -/
def bufByte (s : State) (a : Nat) : Byte :=
  (s.buf.cell? a).getD (Config.unloadedByte s.epoch a)

/-- `n` bytes of `BUF` from offset `a` up, first byte first. -/
def bufBytes (s : State) (a : Nat) : Nat → List Byte
  | 0 => []
  | n + 1 => bufByte s a :: bufBytes s (a + 1) n

/-- `MemRead(a, n)`, defined only inside the datagram and the buffer (R11). -/
def memRead (s : State) (a n : Nat) : Option (List Byte) :=
  if a + n ≤ s.dlen.toNat ∧ a + n ≤ Config.bufBytes then some (bufBytes s a n) else none

/-- `MemWrite(a, 1, b)`, the host's write of one byte (R11, R181). -/
def memWrite (a : BitVec 16) (b : Byte) (s : State) : State :=
  { s with buf := s.buf.put a.toNat b }

/-- `DLEN <- n` (R182). -/
def setDlen (n : Nat) (s : State) : State := { s with dlen := BitVec.ofNat 17 n }

/-- `PHASE <- HDR` (R183). -/
def beginRun (s : State) : State := { s with phase := .hdr }

/-- A rejected access changes exactly one thing (R190). -/
def rejectAccess (s : State) : State := { s with proto := true }

/-- `raise Malformed(code)`: `ERR <- code; PHASE <- ERROR` (R244). Nothing is saved and control goes nowhere. -/
def raiseMalformed (c : ErrCode) (s : State) : State := { s with err := c, phase := .error }

/-- The way out of ERROR and of every run (R185, R250): everything to its reset value but `BUF`, `DLEN` and `PROTO`. -/
def clearRun (s : State) : State :=
  { s with
    phase := .idle, off := 0, endOff := 0
    hValid := false, hVer := 0, hS := false, hType := 0, hLen := 0, hSeid := 0, hSeq := 0, hHlen := 0, pLen := 0
    ieValid := false, ieType := 0, ieLen := 0, ieInst := 0, ieVoff := 0, ieCount := 0
    err := .none, clamp := false }

/-- The header registers hold the decoded fields (R112); an absent session id reads 0 (R30). -/
def writeFields (f : HeaderFields) (s : State) : State :=
  { s with
    hValid := true, hVer := f.ver, hS := f.s, hType := f.mtype, hLen := f.length, hSeid := f.seid.getD 0
    hSeq := f.seq, hHlen := BitVec.ofNat 5 f.hlen }

/-- The header registers hold no field, "never a partial Message" (R25, R112). -/
def voidFields (s : State) : State :=
  { s with hValid := false, hVer := 0, hS := false, hType := 0, hLen := 0, hSeid := 0, hSeq := 0, hHlen := 0 }

/-- There is no payload: `OFF`, `END`, `P_LEN` and `CLAMP` are 0 (R112). -/
def voidPayload (s : State) : State := { s with off := 0, endOff := 0, pLen := 0, clamp := false }

/-- The payload of a valid header is open for extraction (R112). -/
def openPayload (payOff payEnd : Nat) (clamp : Bool) (s : State) : State :=
  { s with
    off := BitVec.ofNat 16 payOff, endOff := BitVec.ofNat 16 payEnd
    pLen := BitVec.ofNat 16 (payloadLen payEnd payOff), clamp := clamp
    err := .none, ieCount := 0, phase := .ies }

/-- What `HDRSTEP` writes for each result (R112). -/
def writeHeader (r : HeaderResult) (s : State) : State :=
  match r with
  | .ok f payOff payEnd clamp => openPayload payOff payEnd clamp (writeFields f s)
  | .badLength f => raiseMalformed .badLen (voidPayload (writeFields f s))
  | .invalid c => raiseMalformed c (voidPayload (voidFields s))

/-- `IESTEP` stops: it writes `PHASE` only (R132, R134, R135). -/
def stopExtraction (s : State) : State := { s with phase := .done }

/-- `IESTEP` emits a record (R132). -/
def emitRecord (type length : BitVec 16) (inst : BitVec 4) (s : State) : State :=
  { s with
    ieType := type, ieLen := length, ieInst := inst, ieVoff := BitVec.ofNat 16 (valueOff s.off.toNat)
    ieCount := s.ieCount + 1
    off := BitVec.ofNat 16 (nextOff s.off.toNat length.toNat)
    ieValid := true }

/-- The host takes the record (R184). -/
def takeRecord (s : State) : State :=
  { s with ieValid := false, ieType := 0, ieLen := 0, ieInst := 0, ieVoff := 0 }

/-- The register port returns `v` (R187). -/
def answerRegister (v : PortData) (s : State) : State := { s with regData := some v }

/-- The buffer port returns `b` (R188). -/
def answerBuffer (b : Byte) (s : State) : State := { s with bufData := some b }

/-- The reset event (R270, R271): every element to its reset value, every byte of `BUF` to a new unspecified value; the
turns to come stay. -/
def resetEvent (s : State) : State :=
  { State.reset with schedule := s.schedule, epoch := s.epoch + 1 }

/-- A named code alone selects nothing in the block (R96, R99). -/
def selectNothing (s : State) : State := s

end Sys2Proof.Machine
end

