-- ==== Sys2Proof/Machine/Command.lean ====
section
/-! DEFINITION. The host's commands (43_host_commands.md R181 to R186, R190). The bits of `v` above [1:0] are ignored
(R45). -/

namespace Sys2Proof.Machine

/-- `NOP` does nothing and is never rejected (R186). -/
def execNop (_v : PortData) (s : State) : Host.Outcome State Fault Refusal := .next s

/-- `START` (R183). -/
def execStart (_v : PortData) (s : State) : Host.Outcome State Fault Refusal :=
  if s.phase = .idle then .next (beginRun s) else .next (rejectAccess s)

/-- `NEXT` (R184). -/
def execNext (_v : PortData) (s : State) : Host.Outcome State Fault Refusal :=
  if s.ieValid then .next (takeRecord s) else .next (rejectAccess s)

/-- `CLEAR` is accepted in every phase (R185). -/
def execClear (_v : PortData) (s : State) : Host.Outcome State Fault Refusal := .next (clearRun s)

/-- `LOAD(a, b)` (R181). -/
def execLoad (a : BitVec 16) (b : Byte) (s : State) : Host.Outcome State Fault Refusal :=
  if s.phase = .idle then .next (memWrite a b s) else .next (rejectAccess s)

/-- `SETLEN(n)` (R182). -/
def execSetlen (n : PortData) (s : State) : Host.Outcome State Fault Refusal :=
  if s.phase = .idle ∧ n.toNat ≤ Config.bufBytes then .next (setDlen n.toNat s) else .next (rejectAccess s)

end Sys2Proof.Machine
end

