-- ==== Sys2Proof/Machine/Element.lean ====
section
/-! DEFINITION. The record `IE` (41_ie_extract.md R132 to R136). -/

namespace Sys2Proof.Machine

/-- `IESTEP` is enabled exactly when `PHASE` = IES and `IE_VALID` = 0 (R132). -/
def ieEnabled (s : State) : Bool := decide (s.phase = .ies) && !s.ieValid

/-- `IE` (R133): one turn of the extractor on the mini-header at `OFF`. It emits the record or stops; it never raises. A
step that is not enabled does not happen (log entry 5). -/
def execIe (type length : BitVec 16) (instByte : Byte) (s : State) : Host.Outcome State Fault Refusal :=
  if ieEnabled s then
    if ieHdrFits (remaining s.endOff.toNat s.off.toNat) then
      if ieValueFits (remaining s.endOff.toNat s.off.toNat) length.toNat then
        .next (emitRecord type length (instanceOf instByte) s)
      else .next (stopExtraction s)
    else .next (stopExtraction s)
  else .next s

end Sys2Proof.Machine
end

