-- ==== Sys2Proof/Machine/Header.lean ====
section
/-! DEFINITION. The header records `HDR8` and `HDR16` (40_header_decode.md R112 to R114). -/

namespace Sys2Proof.Machine

/-- `HDRSTEP` on a header whose fields are `f`: enabled exactly when `PHASE` = HDR (R112); a step that is not enabled
does not happen (log entry 5). -/
def headerStep (f : HeaderFields) (s : State) : Host.Outcome State Fault Refusal :=
  if s.phase = .hdr then .next (writeHeader (judgeHeader Config.lenBias s.dlen.toNat f) s) else .next s

/-- `HDR8` (R113). The spare byte is read past (R88). -/
def execHdr8 (flags mtype : Byte) (length : BitVec 16) (seq : BitVec 24) (_spare : Byte) (s : State) :
    Host.Outcome State Fault Refusal :=
  headerStep (fieldsOfHdr8 flags mtype length seq) s

/-- `HDR16` (R114). The spare byte is read past (R88). -/
def execHdr16 (flags mtype : Byte) (length : BitVec 16) (seid : BitVec 64) (seq : BitVec 24) (_spare : Byte)
    (s : State) : Host.Outcome State Fault Refusal :=
  headerStep (fieldsOfHdr16 flags mtype length seid seq) s

end Sys2Proof.Machine
end

