-- ==== Sys2Proof/Machine/HostRead.lean ====
section
/-! DEFINITION. The host's reads (43_host_commands.md R187, R188). They change nothing of the block; what the port
returns is kept in the model's own fields (log entry 6). -/

namespace Sys2Proof.Machine

/-- `RDREG(k)` (R187). -/
def execRdreg (k : Nat) (s : State) : Host.Outcome State Fault Refusal :=
  .next (answerRegister (readRegister s k) s)

/-- `RDBUF(a)` (R188). -/
def execRdbuf (a : BitVec 16) (s : State) : Host.Outcome State Fault Refusal :=
  .next (answerBuffer (bufByte s a.toNat) s)

end Sys2Proof.Machine
end

