-- ==== Sys2Proof/Machine/NamedCode.lean ====
section
/-! DEFINITION. The named codes (30_encoding.md R92, R93). They are labels for the reader, not decode conditions (R96),
and "select nothing in the block" (R99): where a record carries the code, the header or IE step delivers it like any
other value; standing alone it has no effect (log entry 8). -/

namespace Sys2Proof.Machine

/-- `MSGTYPE_1`, Heartbeat Request (R92). -/
def execMsgtype1 (s : State) : Host.Outcome State Fault Refusal := .next (selectNothing s)

/-- `MSGTYPE_2`, Heartbeat Response (R92). -/
def execMsgtype2 (s : State) : Host.Outcome State Fault Refusal := .next (selectNothing s)

/-- `MSGTYPE_50`, Association Setup Request and Session Establishment Request (R92, conflict C3). -/
def execMsgtype50 (s : State) : Host.Outcome State Fault Refusal := .next (selectNothing s)

/-- `MSGTYPE_51`, Association Setup Response and Session Establishment Response (R92). -/
def execMsgtype51 (s : State) : Host.Outcome State Fault Refusal := .next (selectNothing s)

/-- `IETYPE_1`, Create-PDR (R93). -/
def execIetype1 (s : State) : Host.Outcome State Fault Refusal := .next (selectNothing s)

/-- `IETYPE_3`, Create-FAR (R93). -/
def execIetype3 (s : State) : Host.Outcome State Fault Refusal := .next (selectNothing s)

/-- `IETYPE_19`, Cause (R93). -/
def execIetype19 (s : State) : Host.Outcome State Fault Refusal := .next (selectNothing s)

/-- `IETYPE_60`, NodeID (R93). -/
def execIetype60 (s : State) : Host.Outcome State Fault Refusal := .next (selectNothing s)

/-- `IETYPE_96`, RecoveryTimeStamp (R93). -/
def execIetype96 (s : State) : Host.Outcome State Fault Refusal := .next (selectNothing s)

/-- `CAUSE_ACCEPTED`, Cause value 1, request accepted (R93). -/
def execCauseAccepted (s : State) : Host.Outcome State Fault Refusal := .next (selectNothing s)

end Sys2Proof.Machine
end

