-- ==== Sys2Proof/Machine/Dispatch.lean ====
section
/-! DEFINITION. `exec`: one arm per constructor of `Instr`. -/

namespace Sys2Proof.Machine

def exec (i : Instr) (s : State) : Host.Outcome State Fault Refusal :=
  match i with
  | .hdr8 flags mtype length seq spare => Sys2Proof.Machine.execHdr8 flags mtype length seq spare s
  | .hdr16 flags mtype length seid seq spare => Sys2Proof.Machine.execHdr16 flags mtype length seid seq spare s
  | .ie type length instByte => Sys2Proof.Machine.execIe type length instByte s
  | .nop v => Sys2Proof.Machine.execNop v s
  | .start v => Sys2Proof.Machine.execStart v s
  | .next v => Sys2Proof.Machine.execNext v s
  | .clear v => Sys2Proof.Machine.execClear v s
  | .load a b => Sys2Proof.Machine.execLoad a b s
  | .setlen n => Sys2Proof.Machine.execSetlen n s
  | .rdreg k => Sys2Proof.Machine.execRdreg k s
  | .rdbuf a => Sys2Proof.Machine.execRdbuf a s
  | .msgtype1 => Sys2Proof.Machine.execMsgtype1 s
  | .msgtype2 => Sys2Proof.Machine.execMsgtype2 s
  | .msgtype50 => Sys2Proof.Machine.execMsgtype50 s
  | .msgtype51 => Sys2Proof.Machine.execMsgtype51 s
  | .ietype1 => Sys2Proof.Machine.execIetype1 s
  | .ietype3 => Sys2Proof.Machine.execIetype3 s
  | .ietype19 => Sys2Proof.Machine.execIetype19 s
  | .ietype60 => Sys2Proof.Machine.execIetype60 s
  | .ietype96 => Sys2Proof.Machine.execIetype96 s
  | .causeAccepted => Sys2Proof.Machine.execCauseAccepted s

end Sys2Proof.Machine
end

