-- ==== Sys2Proof/Machine/Fetch.lean ====
section
/-! DEFINITION. How an instruction comes to be executed: the parser's fetch of the record that stands at offset 0 or at
`OFF` (R80, R162, R166), the host's accesses (R180), and the placing of an instruction where it will be fetched. -/

namespace Sys2Proof.Machine

/-- What the parser finds when it looks for its next record. -/
inductive Fetched where
  /-- No parser step is enabled. -/
  | notEnabled
  /-- The header step fails before a whole header can be read (R151, R152). -/
  | short (c : ErrCode)
  /-- No whole mini-header is left in the payload (R134). -/
  | noHeader
  /-- `MemRead` is not defined there (R11). -/
  | undefined
  /-- The bytes of a record, with the place they stand in. -/
  | record (e : Encoded)
  deriving DecidableEq, Repr

/-- The fetch of `HDRSTEP`: it reads nothing of a datagram below 8 bytes, the flags byte alone of one that is too short
for its session id, and otherwise the 8 or 16 bytes of the header (R65, R110, R162). -/
def fetchHeader (s : State) : Fetched :=
  if short8 s.dlen.toNat then .short .short8
  else if short16 s.dlen.toNat (sessionBit (bufByte s 0)) then .short .short16
  else
    match memRead s 0 (hdrLen (sessionBit (bufByte s 0))) with
    | some bs => .record (.header bs)
    | none => .undefined

/-- The fetch of `IESTEP`: the 5 bytes at `OFF` when 5 remain, nothing otherwise (R65, R132). -/
def fetchElement (s : State) : Fetched :=
  if ieHdrFits (remaining s.endOff.toNat s.off.toNat) then
    match memRead s s.off.toNat Config.ieHdr with
    | some bs => .record (.element bs)
    | none => .undefined
  else .noHeader

/-- The parser's fetch: `HDRSTEP` in HDR, `IESTEP` in IES with `IE_VALID` = 0, else no step is enabled (R112, R132,
R192). -/
def parserFetch (s : State) : Fetched :=
  if s.phase = .hdr then fetchHeader s
  else if ieEnabled s then fetchElement s
  else .notEnabled

/-- The parser's turn: its enabled step, or nothing where none is enabled (R13, R192). -/
def parserTurn (s : State) : Host.Outcome State Fault Refusal :=
  match parserFetch s with
  | .notEnabled => .next s
  | .short c => .next (writeHeader (.invalid c) s)
  | .noHeader => .next (stopExtraction s)
  | .undefined => .fault .memReadUndefined
  | .record e =>
    match decode e with
    | .ok i => exec i s
    | .error _ => .fault .recordUndecodable

/-- The host's turn: the command or read that the access stands for; a write that stands for none is a rejected access
(R189, R190). -/
def hostTurn (a : HostAccess) (s : State) : Host.Outcome State Fault Refusal :=
  match decode (.access a) with
  | .ok i => exec i s
  | .error _ => .next (rejectAccess s)

/-- A named code standing alone: its label's meaning, or nothing where the value has no name, since the block treats all
values alike (R92, R93). -/
def labelTurn (f : CodeField) (v : BitVec 16) (s : State) : Host.Outcome State Fault Refusal :=
  match decode (.code f v) with
  | .ok i => exec i s
  | .error _ => .next s

/-- One turn of the order of steps. -/
def takeTurn (t : Turn) (s : State) : Host.Outcome State Fault Refusal :=
  match t with
  | .parser => parserTurn s
  | .host a => hostTurn a s
  | .label f v => labelTurn f v s
  | .reset => .next (resetEvent s)

/-- The next turn of the schedule; when none is left the parser moves by itself, so that a step that stays enabled is
taken (R290, log entry 3). -/
def nextTurn (s : State) : Host.Outcome State Fault Refusal :=
  match s.schedule with
  | [] => parserTurn s
  | t :: rest => takeTurn t { s with schedule := rest }

/-- Bytes stored one after another from offset `a` up. -/
def storeBytes (a : Nat) (bs : List Byte) (s : State) : State :=
  match bs with
  | [] => s
  | b :: rest => storeBytes (a + 1) rest { s with buf := s.buf.put a b }

/-- The header bytes are the whole datagram, and a run on it is started. -/
def placeHeader (bs : List Byte) (s : State) : State :=
  { storeBytes 0 bs s with
    dlen := BitVec.ofNat 17 bs.length, phase := .hdr, schedule := .parser :: s.schedule }

/-- The mini-header is the first record of the largest payload behind an `HDR8`, whose header step has been taken
(`H_LEN` = `DLEN` = 65535): the registers that select it are those that step leaves (R112). -/
def placeElement (bs : List Byte) (s : State) : State :=
  { storeBytes Config.hdrShort bs s with
    dlen := 65535, phase := .ies, hValid := true, hLen := 65535, hHlen := 8, off := 8, endOff := 65535, pLen := 65527
    ieValid := false, schedule := .parser :: s.schedule }

/-- The state with an instruction's encoding placed so that the very next step fetches it (log entry 12). -/
def placeFetch (e : Encoded) (s : State) : State :=
  match e with
  | .header bs => placeHeader bs s
  | .element bs => placeElement bs s
  | .access a => { s with schedule := .host a :: s.schedule }
  | .code f v => { s with schedule := .label f v :: s.schedule }

/-- The same for a word of the opcode table; a word of no row's width changes nothing. -/
def placeTableWord (nbits w : Nat) (s : State) : State :=
  match tableEncoded nbits w with
  | some e => placeFetch e s
  | none => s

end Sys2Proof.Machine
end

