-- ==== Sys2Proof/Machine/Step.lean ====
section
/-! DEFINITION. One step of the machine, and the placing of an instruction for it. -/

namespace Sys2Proof.Machine

/-- One atomic step of one agent (R11, R13): the next turn. -/
def step (s : State) : Host.Outcome State Fault Refusal := nextTurn s

/-- The state with the instruction of an opcode-table word where the next step fetches it. -/
def State.withFetchWord (s : State) (nbits w : Nat) : State := placeTableWord nbits w s

end Sys2Proof.Machine
end

