-- ==== Sys2Proof/Machine/Reference.lean ====
section
/-! DEFINITION. The source's pure functions: the reference decoders `DecodeHeader` (R110) and `DecodeAll` (R130), which
the block must agree with (R112, R142), and the encoders and builders of the context software (R98, R201 to R204), in
which the round trips are stated. None of these is a step of the block. -/

namespace Sys2Proof.Machine

/-- `d[o]`; used only inside the byte string (R10). -/
def byteAt (d : List Byte) (o : Nat) : Byte := d.getD o 0

/-- `be16(d, o)` (R10). -/
def be16At (d : List Byte) (o : Nat) : BitVec 16 := be16 (byteAt d o) (byteAt d (o + 1))

/-- `be24(d, o)` (R10). -/
def be24At (d : List Byte) (o : Nat) : BitVec 24 := be24 (byteAt d o) (byteAt d (o + 1)) (byteAt d (o + 2))

/-- `be64(d, o)` (R10). -/
def be64At (d : List Byte) (o : Nat) : BitVec 64 :=
  be64 (byteAt d o) (byteAt d (o + 1)) (byteAt d (o + 2)) (byteAt d (o + 3))
    (byteAt d (o + 4)) (byteAt d (o + 5)) (byteAt d (o + 6)) (byteAt d (o + 7))

/-- `d[a : b]` (R10), used only with `a <= b <= len(d)`. -/
def slice (d : List Byte) (a b : Nat) : List Byte := (d.take b).drop a

/-- Step 4 of `DecodeHeader` (R110): the fields, by the flag alone. -/
def headerFields (d : List Byte) : HeaderFields :=
  if sessionBit (byteAt d 0) then
    { ver := versionOf (byteAt d 0), s := true, mtype := byteAt d 1, length := be16At d 2, seid := some (be64At d 4),
      seq := be24At d 12, hlen := hdrLen true }
  else
    { ver := versionOf (byteAt d 0), s := false, mtype := byteAt d 1, length := be16At d 2, seid := none,
      seq := be24At d 4, hlen := hdrLen false }

/-- `DecodeHeader(d, len(d))` (R110), with `LEN_BIAS` as an argument (D16). -/
def decodeHeader (bias : Nat) (d : List Byte) : HeaderResult :=
  if short8 d.length then .invalid .short8
  else if short16 d.length (sessionBit (byteAt d 0)) then .invalid .short16
  else if badLen bias (headerFields d).length.toNat (headerFields d).hlen then .badLength (headerFields d)
  else
    .ok (headerFields d) (headerFields d).hlen (payloadEnd bias (headerFields d).length.toNat d.length)
      (clamped bias (headerFields d).length.toNat d.length)

/-- The payload of an `Ok` result, `d[pay_off : pay_end]` (R110); the other results have none. -/
def payloadOf (d : List Byte) : HeaderResult → Option (List Byte)
  | .ok _ payOff payEnd _ => some (slice d payOff payEnd)
  | _ => none

/-- An IE record (R131). -/
structure IeRecord where
  type : BitVec 16
  length : BitVec 16
  inst : BitVec 4
  value : List Byte
  deriving DecidableEq, Repr

/-- The loop of `DecodeAll` (R130) at payload offset `o`, for at most `fuel` turns. -/
def decodeLoop (p : List Byte) : Nat → Nat → List IeRecord
  | 0, _ => []
  | fuel + 1, o =>
    if ieHdrFits (remaining p.length o) then
      if ieValueFits (remaining p.length o) (be16At p (o + 2)).toNat then
        { type := be16At p o, length := be16At p (o + 2), inst := instanceOf (byteAt p (o + 4)),
          value := slice p (valueOff o) (valueOff o + (be16At p (o + 2)).toNat) }
          :: decodeLoop p fuel (nextOff o (be16At p (o + 2)).toNat)
      else []
    else []

/-- `DecodeAll(p)` (R130); a turn consumes at least 5 bytes, so as many turns as bytes suffice (R167). -/
def decodeAll (p : List Byte) : List IeRecord := decodeLoop p p.length 0

/-- `EncodeIE(t, v, i)` (R201), defined for values of at most 65535 bytes (R204, U4). -/
def encodeIe (type : BitVec 16) (value : List Byte) (inst : BitVec 4) : Option (List Byte) :=
  if value.length ≤ 65535 then
    some (bytes16 type ++ bytes16 (BitVec.ofNat 16 value.length) ++ [0#4 ++ inst] ++ value)
  else none

/-- The encoder's length field, "(session present ? 12 : 4) + payload_length" (R202). -/
def encodedLength (seid : Option (BitVec 64)) (payloadLength : BitVec 16) : Nat :=
  (if seid.isSome then 12 else 4) + payloadLength.toNat

/-- `EncodeHeader` (R202), defined while its length field fits 16 bits (R204, U4). -/
def encodeHeader (mtype : Byte) (payloadLength : BitVec 16) (seq : BitVec 24) (seid : Option (BitVec 64)) :
    Option (List Byte) :=
  if encodedLength seid payloadLength ≤ 65535 then
    match seid with
    | none =>
      some (0x20#8 :: mtype :: (bytes16 (BitVec.ofNat 16 (encodedLength none payloadLength)) ++ bytes24 seq ++ [0#8]))
    | some q =>
      some (0x24#8 :: mtype ::
        (bytes16 (BitVec.ofNat 16 (encodedLength (some q) payloadLength)) ++ bytes64 q ++ bytes24 seq ++ [0#8]))
  else none

/-- `CAUSE c` (R98, R203). -/
def causeIe (c : Byte) : Option (List Byte) := encodeIe 19 [c] 0

/-- `NODEID4 a.b.c.d` (R98, R203). -/
def nodeId4Ie (a b c d : Byte) : Option (List Byte) := encodeIe 60 [0, a, b, c, d] 0

/-- `RECOVERY_TS t` (R98, R203). -/
def recoveryTsIe (t : BitVec 32) : Option (List Byte) :=
  encodeIe 96 [fieldByte 3 t, fieldByte 2 t, fieldByte 1 t, fieldByte 0 t] 0

/-- An `HDR8` with version 1 and no ignored bit set, and records behind it (R98). -/
def plainHdr8 (mtype : Byte) (length : Nat) (seq : BitVec 24) (records : List Byte) : Option (List Byte) :=
  if length ≤ 65535 then
    some (0x20#8 :: mtype :: (bytes16 (BitVec.ofNat 16 length) ++ bytes24 seq ++ [0#8] ++ records))
  else none

/-- An `HDR16` with version 1 and no ignored bit set, and records behind it (R98). -/
def plainHdr16 (mtype : Byte) (length : Nat) (seid : BitVec 64) (seq : BitVec 24) (records : List Byte) :
    Option (List Byte) :=
  if length ≤ 65535 then
    some (0x24#8 :: mtype :: (bytes16 (BitVec.ofNat 16 length) ++ bytes64 seid ++ bytes24 seq ++ [0#8] ++ records))
  else none

/-- `MSG8`: the length as the source's encoder counts it (R98). -/
def msg8 (mtype : Byte) (seq : BitVec 24) (records : List Byte) : Option (List Byte) :=
  plainHdr8 mtype (4 + records.length) seq records

/-- `MSG16` (R98). -/
def msg16 (mtype : Byte) (seid : BitVec 64) (seq : BitVec 24) (records : List Byte) : Option (List Byte) :=
  plainHdr16 mtype (12 + records.length) seid seq records

/-- `MSG8.T`: the length is the datagram's size (R98). -/
def msg8Total (mtype : Byte) (seq : BitVec 24) (records : List Byte) : Option (List Byte) :=
  plainHdr8 mtype (8 + records.length) seq records

/-- `MSG16.T` (R98). -/
def msg16Total (mtype : Byte) (seid : BitVec 64) (seq : BitVec 24) (records : List Byte) : Option (List Byte) :=
  plainHdr16 mtype (16 + records.length) seid seq records

end Sys2Proof.Machine
end

