-- ==== Sys2Proof/Machine/Views.lean ====
section
/-! DEFINITION. What the state stands for (R50, R51), what a run yields (R193), the end of a run (R192), and a host that
takes every record (R191). -/

namespace Sys2Proof.Machine

/-- The datagram: the bytes of `BUF` below `DLEN` (R20, R21). -/
def datagram (s : State) : List Byte := bufBytes s 0 s.dlen.toNat

/-- The payload: `BUF[H_HLEN : END]` (R50). -/
def payload (s : State) : List Byte := bufBytes s s.hHlen.toNat (s.endOff.toNat - s.hHlen.toNat)

/-- The decoded Message (R50). -/
structure Message where
  ver : BitVec 3
  hasSessionId : Bool
  mtype : Byte
  length : BitVec 16
  seid : Option (BitVec 64)
  seq : BitVec 24
  /-- Absent in ERROR, where there is no payload. -/
  payload : Option (List Byte)
  deriving DecidableEq, Repr

/-- The Message view (R50). -/
def messageView (s : State) : Option Message :=
  if s.hValid then
    some
      { ver := s.hVer, hasSessionId := s.hS, mtype := s.hType, length := s.hLen
        seid := if s.hS then some s.hSeid else none
        seq := s.hSeq
        payload := if s.phase = .ies ∨ s.phase = .done then some (payload s) else none }
  else none

/-- The InformationElement view (R51). -/
def recordView (s : State) : Option IeRecord :=
  if s.ieValid then
    some
      { type := s.ieType, length := s.ieLen, inst := s.ieInst
        value := bufBytes s s.ieVoff.toNat s.ieLen.toNat }
  else none

/-- The header result of a run (R193). -/
structure HeaderView where
  err : ErrCode
  hValid : Bool
  hVer : BitVec 3
  hS : Bool
  hType : Byte
  hLen : BitVec 16
  hSeid : BitVec 64
  hSeq : BitVec 24
  hHlen : BitVec 5
  pLen : BitVec 16
  off : BitVec 16
  endOff : BitVec 16
  clamp : Bool
  deriving DecidableEq, Repr

/-- The header result as it stands in the registers (R193). -/
def headerView (s : State) : HeaderView :=
  { err := s.err, hValid := s.hValid, hVer := s.hVer, hS := s.hS, hType := s.hType, hLen := s.hLen, hSeid := s.hSeid
    hSeq := s.hSeq, hHlen := s.hHlen, pLen := s.pLen, off := s.off, endOff := s.endOff, clamp := s.clamp }

/-- A run has ended (R192). -/
def runEnded (s : State) : Bool := decide (s.phase = .done) || decide (s.phase = .error)

/-- The block without what no rule of a run depends on: the host's error flag (R259), what the ports returned, and the
turns to come. -/
def runView (s : State) : State := { s with proto := false, regData := none, bufData := none, schedule := [] }

/-- The state after one turn, where there is one. -/
def afterTurn (t : Turn) (s : State) : Option State :=
  match step { s with schedule := [t] } with
  | .next s' => some s'
  | _ => none

/-- Step 5 of R191, for at most `fuel` parser steps: let the parser step; while it presents a record take it down and
answer `NEXT`. The records the host saw, in order, and the state it left the block in. -/
def takeAllRecords : Nat → State → List IeRecord × State
  | 0, s => ([], s)
  | fuel + 1, s =>
    match afterTurn .parser s with
    | none => ([], s)
    | some s1 =>
      match recordView s1 with
      | none => ([], s1)
      | some r =>
        match afterTurn (.host (.regWrite 0x00 2)) s1 with
        | none => ([r], s1)
        | some s2 => (r :: (takeAllRecords fuel s2).1, (takeAllRecords fuel s2).2)

/-- The state after several turns, where each has one. -/
def afterTurns : List Turn → State → Option State
  | [], s => some s
  | t :: ts, s =>
    match afterTurn t s with
    | some s' => afterTurns ts s'
    | none => none

/-- `LOAD`s of bytes one after another from offset `a` up (R191). -/
def loadTurns : Nat → List Byte → List Turn
  | _, [] => []
  | a, b :: bs => .host (.bufWrite (BitVec.ofNat 16 a) b) :: loadTurns (a + 1) bs

/-- Steps 1 and 2 of R191 for a datagram: `LOAD` its bytes, at most 65536 of them, `SETLEN` their number, `START`. -/
def openingTurns (d : List Byte) : List Turn :=
  loadTurns 0 (d.take Config.bufBytes) ++
    [.host (.regWrite 0x02 (BitVec.ofNat 64 (d.take Config.bufBytes).length)), .host (.regWrite 0x00 1)]

end Sys2Proof.Machine
end

