-- ==== Sys2Proof/Safety.lean ====
section
/-! DEFINITION. What holds in every state reachable from reset (R52, with R25, R30, R34, R164 and R167 for the parts of
it that they say), in the terms statements use. -/

namespace Sys2Proof.Machine

/-- No header has been decoded: the header registers and `P_LEN` read 0 (R25). -/
abbrev headerClear (s : State) : Prop :=
  s.hVer = 0 ∧ s.hS = false ∧ s.hType = 0 ∧ s.hLen = 0 ∧ s.hSeid = 0 ∧ s.hSeq = 0 ∧ s.hHlen = 0 ∧ s.pLen = 0

/-- No record is presented: the four record registers read 0 (R34). -/
abbrev recordClear (s : State) : Prop := s.ieType = 0 ∧ s.ieLen = 0 ∧ s.ieInst = 0 ∧ s.ieVoff = 0

/-- R52(c): what PHASE = IES or DONE implies, with R164's order of the offsets. `END <= 65535` is `END`'s width. -/
abbrev extracting (s : State) : Prop :=
  s.hValid = true ∧ s.err = .none ∧ s.hHlen.toNat = 8 + 8 * s.hS.toNat ∧ s.hHlen.toNat ≤ s.dlen.toNat ∧
  s.hHlen.toNat ≤ s.hLen.toNat ∧ s.endOff.toNat = min s.hLen.toNat s.dlen.toNat ∧
  s.pLen.toNat = s.endOff.toNat - s.hHlen.toNat ∧ s.hHlen.toNat ≤ s.off.toNat ∧ s.off.toNat ≤ s.endOff.toNat ∧
  s.clamp = decide (s.dlen.toNat < s.hLen.toNat)

/-- The elements as R271 lists them after reset. Every byte of `BUF` is unspecified: none is listed, and each reads as
the free value of its offset. -/
abbrev atReset (s : State) : Prop :=
  (s.buf = [] ∧ ∀ a, bufByte s a = Config.unloadedByte s.epoch a) ∧ s.dlen = 0 ∧ s.phase = .idle ∧ s.off = 0 ∧
  s.endOff = 0 ∧ s.hValid = false ∧ headerClear s ∧ s.ieValid = false ∧ recordClear s ∧ s.ieCount = 0 ∧
  s.err = .none ∧ s.clamp = false ∧ s.proto = false ∧ status s = 0 ∧ outIeValid s = false ∧ outDone s = false ∧
  outError s = false

/-- The rejected accesses, case by case (R190). -/
def accessRejected (s : State) : HostAccess → Prop
  | .bufWrite _ _ => s.phase ≠ .idle
  | .bufRead _ => False
  | .regRead _ => False
  | .regWrite k v =>
    if k = 0x00 then
      (commandBits v = 1 ∧ s.phase ≠ .idle) ∨ (commandBits v = 2 ∧ s.ieValid = false)
    else if k = 0x02 then s.phase ≠ .idle ∨ 65536 < v.toNat
    else True

/-- The access is a write of `CMD` that commands `CLEAR` (R185). -/
def isClear : HostAccess → Prop
  | .regWrite k v => k = 0x00 ∧ commandBits v = 3
  | _ => False

/-- The access is a write of `CMD` that commands `NEXT` (R184). -/
def isNext : HostAccess → Prop
  | .regWrite k v => k = 0x00 ∧ commandBits v = 2
  | _ => False

/-- R52 (a) to (g), the canonical form of `BUF`, and the rules R25, R30, R34 and R167 that R52 leaves to the elements. -/
structure State.Inv (s : State) : Prop where
  /-- The loaded bytes are in canonical form. -/
  bufWf : Memory.wf s.buf
  /-- R52(g). -/
  dlenLe : s.dlen.toNat ≤ 65536
  /-- R52(b). -/
  beforeHeader : s.phase = .idle ∨ s.phase = .hdr →
    s.off = 0 ∧ s.endOff = 0 ∧ s.hValid = false ∧ headerClear s ∧ s.ieValid = false ∧ recordClear s ∧ s.ieCount = 0 ∧
      s.err = .none ∧ s.clamp = false
  /-- R52(c). -/
  inPayload : s.phase = .ies ∨ s.phase = .done → extracting s
  /-- R52(d). -/
  inError : s.phase = .error →
    s.err ≠ .none ∧ s.off = 0 ∧ s.endOff = 0 ∧ s.pLen = 0 ∧ s.ieValid = false ∧ s.ieCount = 0 ∧ s.clamp = false ∧
      (s.hValid = true ↔ s.err = .badLen)
  /-- R52(e). -/
  presented : s.ieValid = true →
    s.phase = .ies ∧ s.ieVoff.toNat + s.ieLen.toNat = s.off.toNat ∧ s.hHlen.toNat + 5 ≤ s.ieVoff.toNat ∧
      1 ≤ s.ieCount.toNat
  /-- R52(f). -/
  ended : s.phase = .done →
    s.ieValid = false ∧ (s.endOff.toNat - s.off.toNat < 5 ∨
      s.endOff.toNat - s.off.toNat - 5 < (be16 (bufByte s (s.off.toNat + 2)) (bufByte s (s.off.toNat + 3))).toNat)
  /-- R25. -/
  noHeader : s.hValid = false → headerClear s
  /-- R116 and R32: a reported header has the length its flag says. -/
  headerLen : s.hValid = true → s.hHlen.toNat = 8 + 8 * s.hS.toNat
  /-- R30: an absent session id reads 0. -/
  noSession : s.hS = false → s.hSeid = 0
  /-- R34. -/
  noRecord : s.ieValid = false → recordClear s
  /-- R167: each record took at least 5 bytes. -/
  counted : s.phase = .ies ∨ s.phase = .done → 5 * s.ieCount.toNat ≤ s.off.toNat - s.hHlen.toNat

end Sys2Proof.Machine
end

