-- ==== Sys2Proof/WellFormed.lean ====
section
/-! DEFINITION. What makes an instruction term well formed: the bits that select its row stand as the row's match and
mask say (R99). Every other bit of every operand is free. -/

namespace Sys2Proof

/-- The selecting bits of each row: flags bit 2 for the two headers (R80), `v[1:0]` for the four commands (R95); the
other rows select on nothing inside their operands. -/
def Instr.wf : Instr → Bool
  | .hdr8 flags _ _ _ _ => !sessionBit flags
  | .hdr16 flags _ _ _ _ _ => sessionBit flags
  | .ie _ _ _ => true
  | .nop v => commandBits v == 0
  | .start v => commandBits v == 1
  | .next v => commandBits v == 2
  | .clear v => commandBits v == 3
  | .load _ _ => true
  | .setlen _ => true
  | .rdreg _ => true
  | .rdbuf _ => true
  | .msgtype1 => true
  | .msgtype2 => true
  | .msgtype50 => true
  | .msgtype51 => true
  | .ietype1 => true
  | .ietype3 => true
  | .ietype19 => true
  | .ietype60 => true
  | .ietype96 => true
  | .causeAccepted => true

end Sys2Proof
end

