-- ==== Sys2Proof/Certificates/Slice0/Obligations.lean ====
section
/-! DEFINITION. The statements for the provers, from the numbered rules of spec/ (43_host_commands.md, 40_header_decode.md,
41_ie_extract.md, 42_length_offset.md, 10_state.md, 60_exceptions.md, 70_reset_and_hazards.md). -/

open Sys2Proof Sys2Proof.Machine

/-! ### Reset, the views, the arithmetic -/

/-- R271: the state after reset, element by element, with every byte of `BUF` unspecified. -/
def Obligations.ResetLeavesRuleR271State : Prop := atReset State.reset

/-- R270, R271: a reset event in any state gives the state of R271; what is left of the turns stays and the
reset count goes up (the model's own fields, log entries 2 and 3). -/
def Obligations.ResetEventGivesResetStateFromAnyState : Prop :=
  ∀ (s : State) (rest : List Turn), ∃ t,
    step { s with schedule := .reset :: rest } = .next t ∧ atReset t ∧ t.schedule = rest ∧ t.epoch = s.epoch + 1

/-- R52 holds right after reset. -/
def Obligations.ResetMeetsTheInvariant : Prop := State.Inv State.reset

/-- R44 and R47: every bit of `STATUS` and the three level outputs, and `BUSY` in words. -/
def Obligations.StatusBitsAndLevelOutputs : Prop :=
  (∀ s : State,
    (status s).toNat = s.phase.code.toNat + 8 * s.ieValid.toNat + 16 * s.hValid.toNat + 32 * s.err.code.toNat
      + 256 * s.clamp.toNat + 512 * s.proto.toNat + 1024 * (busy s).toNat ∧
    (busy s = true ↔ s.phase = .hdr ∨ (s.phase = .ies ∧ s.ieValid = false)) ∧
    outIeValid s = s.ieValid ∧ (outDone s = true ↔ s.phase = .done) ∧ (outError s = true ↔ s.phase = .error)) ∧
  status State.reset = 0 ∧
  (Phase.idle.code = 0 ∧ Phase.hdr.code = 1 ∧ Phase.ies.code = 2 ∧ Phase.done.code = 3 ∧ Phase.error.code = 4) ∧
  (ErrCode.none.code = 0 ∧ ErrCode.short8.code = 1 ∧ ErrCode.short16.code = 2 ∧ ErrCode.badLen.code = 3)

/-- R10, R62, R63: a big-endian field is the sum of its bytes, the first the most significant, and byte `k` of a field is
its bits `8k+7` to `8k`. -/
def Obligations.FieldsAreBigEndian : Prop :=
  (∀ b1 b0 : Byte, (be16 b1 b0).toNat = b1.toNat * 256 + b0.toNat) ∧
  (∀ b2 b1 b0 : Byte, (be24 b2 b1 b0).toNat = b2.toNat * 65536 + b1.toNat * 256 + b0.toNat) ∧
  (∀ b7 b6 b5 b4 b3 b2 b1 b0 : Byte,
    (be64 b7 b6 b5 b4 b3 b2 b1 b0).toNat = b7.toNat * 256 ^ 7 + b6.toNat * 256 ^ 6 + b5.toNat * 256 ^ 5
      + b4.toNat * 256 ^ 4 + b3.toNat * 256 ^ 3 + b2.toNat * 256 ^ 2 + b1.toNat * 256 + b0.toNat) ∧
  (∀ (w k : Nat) (v : BitVec w), (fieldByte k v).toNat = v.toNat / 256 ^ k % 256)

/-- R150 to R160 and R168: each length function is the arithmetic of its rule. -/
def Obligations.LengthFunctionsAreTheRulesArithmetic : Prop :=
  (hdrLen false = 8 ∧ hdrLen true = 16) ∧
  (∀ n, short8 n = true ↔ n < 8) ∧
  (∀ n b, short16 n b = true ↔ b = true ∧ n < 16) ∧
  (∀ l h, badLen Config.lenBias l h = true ↔ l < h) ∧
  (∀ l n, payloadEnd Config.lenBias l n = min l n) ∧
  (∀ e h, h ≤ e → payloadLen e h + h = e) ∧
  (∀ l n, clamped Config.lenBias l n = true ↔ n < l) ∧
  (∀ e o, o ≤ e → remaining e o + o = e) ∧
  (∀ r, ieHdrFits r = true ↔ 5 ≤ r) ∧
  (∀ e o l, 5 ≤ remaining e o → (ieValueFits (remaining e o) l = true ↔ o + 5 + l ≤ e)) ∧
  (∀ o, valueOff o = o + 5) ∧
  (∀ o l, nextOff o l = o + 5 + l)

/-! ### Encoding -/

/-- Words written out from the encodings of R81, R82, R84, R92, R93 and R95 decode to the instructions they stand for. -/
def Obligations.SampleWordsDecodeAsWritten : Prop :=
  decode (.header [0x20, 0x01, 0x00, 0x11, 0x00, 0x00, 0x2A, 0x00]) = .ok (.hdr8 0x20 1 17 42 0) ∧
  decode (.header [0x24, 0x33, 0x00, 0x10, 0x00, 0x00, 0x12, 0x34, 0x56, 0x78, 0x9A, 0xBC, 0x00, 0x00, 0x07, 0x00]) =
    .ok (.hdr16 0x24 51 16 0x0000123456789ABC 7 0) ∧
  decode (.element [0x00, 0x60, 0x00, 0x04, 0xC3]) = .ok (.ie 96 4 0xC3) ∧
  decode (.access (.regWrite 0x00 5)) = .ok (.start 5) ∧
  decode (.access (.regWrite 0x00 0xFFFFFFFFFFFFFFFC)) = .ok (.nop 0xFFFFFFFFFFFFFFFC) ∧
  decode (.access (.regWrite 0x02 17)) = .ok (.setlen 17) ∧
  decode (.code .ieType 0x0060) = .ok .ietype96

/-- Tier 3: decoding undoes encoding, for every well-formed instruction and every operand. -/
def Obligations.DecodeOfEncodeIsTheInstruction : Prop :=
  ∀ i : Instr, i.wf = true → decode (encode i) = .ok i

/-- What decodes is well formed, and its encoding is exactly what was read: the record at the front of the bytes, the
access, or the code. -/
def Obligations.EncodeOfDecodeIsWhatWasRead : Prop :=
  ∀ (e : Encoded) (i : Instr), decode e = .ok i →
    i.wf = true ∧
    match e, encode i with
    | .header bs, .header cs => cs <+: bs
    | .element bs, .element cs => cs <+: bs
    | .access a, .access b => a = b
    | .code f v, .code g w => f = g ∧ v = w
    | _, _ => False

/-! ### The step -/

/-- A step runs the decoded instruction: the parser's turn, the header at offset 0 or the record at `OFF`; the host's
turn, the access; a label, its code. A turn taken from the schedule is removed from it; with none left the parser moves. -/
def Obligations.StepRunsTheDecodedInstruction : Prop :=
  ∀ (s : State) (i : Instr) (rest : List Turn),
    (s.phase = .hdr → 8 ≤ s.dlen.toNat → hdrLen (sessionBit (bufByte s 0)) ≤ s.dlen.toNat →
      decode (.header (bufBytes s 0 (hdrLen (sessionBit (bufByte s 0))))) = .ok i →
      step { s with schedule := .parser :: rest } = exec i { s with schedule := rest } ∧
      step { s with schedule := [] } = exec i { s with schedule := [] }) ∧
    (s.phase = .ies → s.ieValid = false → 5 ≤ s.endOff.toNat - s.off.toNat → s.off.toNat + 5 ≤ s.dlen.toNat →
      decode (.element (bufBytes s s.off.toNat 5)) = .ok i →
      step { s with schedule := .parser :: rest } = exec i { s with schedule := rest } ∧
      step { s with schedule := [] } = exec i { s with schedule := [] }) ∧
    (∀ a, decode (.access a) = .ok i →
      step { s with schedule := .host a :: rest } = exec i { s with schedule := rest }) ∧
    (∀ f v, decode (.code f v) = .ok i →
      step { s with schedule := .label f v :: rest } = exec i { s with schedule := rest })

/-- Tier 3: R52, with the canonical form of `BUF` and R25, R30, R34 and R167, is kept by every step. -/
def Obligations.EveryStepKeepsTheInvariant : Prop :=
  ∀ s t : State, s.Inv → step s = .next t → t.Inv

/-- R166, R162, R65: in a state with the invariant no step stops, every fetch of the parser is inside the datagram, and so
is every value the host is pointed at. A header fetch is bytes 0 to 7 or 0 to 15. With `DLEN` below 8 no byte is read: the
answer is SHORT8 over every content of `BUF`. The answer SHORT16 needs `DLEN` from 8 to 15 and reads the flags byte alone:
it is the same over every `BUF` with that session flag. With no mini-header left nothing is read. And no fetch reads a byte
at or beyond `DLEN`: it is the same over every `BUF` that agrees below it. -/
def Obligations.ParserReadsStayInsideTheDatagram : Prop :=
  ∀ s : State, s.Inv →
    (∃ t, step s = .next t) ∧
    (∀ bs, parserFetch s = .record (.header bs) →
      bs = bufBytes s 0 bs.length ∧ (bs.length = 8 ∨ bs.length = 16) ∧ bs.length ≤ s.dlen.toNat) ∧
    (∀ bs, parserFetch s = .record (.element bs) →
      bs = bufBytes s s.off.toNat 5 ∧ s.off.toNat + 4 ≤ s.endOff.toNat - 1 ∧
        s.endOff.toNat - 1 ≤ s.dlen.toNat - 1 ∧ s.off.toNat + 4 < s.dlen.toNat ∧ s.off.toNat + 4 ≤ 65534) ∧
    (∀ c, parserFetch s = .short c →
      (c = .short8 ∧ s.dlen.toNat < 8 ∧
        ∀ (m : Memory) (n : Nat), parserFetch { s with buf := m, epoch := n } = .short .short8) ∨
      (c = .short16 ∧ 8 ≤ s.dlen.toNat ∧ s.dlen.toNat < 16 ∧ sessionBit (bufByte s 0) = true ∧
        ∀ (m : Memory) (n : Nat), sessionBit (bufByte { s with buf := m, epoch := n } 0) = true →
          parserFetch { s with buf := m, epoch := n } = .short .short16)) ∧
    (parserFetch s = .noHeader →
      ∀ (m : Memory) (n : Nat), parserFetch { s with buf := m, epoch := n } = .noHeader) ∧
    (∀ (m : Memory) (n : Nat),
      (∀ a, a < s.dlen.toNat → bufByte { s with buf := m, epoch := n } a = bufByte s a) →
      parserFetch { s with buf := m, epoch := n } = parserFetch s) ∧
    (s.ieValid = true → s.ieVoff.toNat + s.ieLen.toNat ≤ s.endOff.toNat ∧ s.endOff.toNat ≤ s.dlen.toNat)

/-! ### The header decoder -/

/-- R113: `HDR8` completes where the datagram has 8 bytes and the length field is at least 8; all it writes, and nothing
else. -/
def Obligations.Hdr8WritesTheDecodedHeader : Prop :=
  ∀ (flags mtype spare : Byte) (length : BitVec 16) (seq : BitVec 24) (s : State),
    s.phase = .hdr → 8 ≤ s.dlen.toNat → 8 ≤ length.toNat →
    exec (.hdr8 flags mtype length seq spare) s = .next
      { s with
        hValid := true, hVer := flags.extractLsb' 5 3, hS := false, hType := mtype, hLen := length, hSeid := 0
        hSeq := seq, hHlen := 8, off := 8, endOff := BitVec.ofNat 16 (min length.toNat s.dlen.toNat)
        pLen := BitVec.ofNat 16 (min length.toNat s.dlen.toNat - 8)
        clamp := decide (s.dlen.toNat < length.toNat), err := .none, ieCount := 0, phase := .ies }

/-- R114: `HDR16` completes where the datagram has 16 bytes and the length field is at least 16. -/
def Obligations.Hdr16WritesTheDecodedHeader : Prop :=
  ∀ (flags mtype spare : Byte) (length : BitVec 16) (seid : BitVec 64) (seq : BitVec 24) (s : State),
    s.phase = .hdr → 16 ≤ s.dlen.toNat → 16 ≤ length.toNat →
    exec (.hdr16 flags mtype length seid seq spare) s = .next
      { s with
        hValid := true, hVer := flags.extractLsb' 5 3, hS := true, hType := mtype, hLen := length, hSeid := seid
        hSeq := seq, hHlen := 16, off := 16, endOff := BitVec.ofNat 16 (min length.toNat s.dlen.toNat)
        pLen := BitVec.ofNat 16 (min length.toNat s.dlen.toNat - 16)
        clamp := decide (s.dlen.toNat < length.toNat), err := .none, ieCount := 0, phase := .ies }

/-- R243, R244: where `HDR8` and `HDR16` take BADLEN; the fields are reported, the payload is not. -/
def Obligations.BadLengthKeepsFieldsAndEntersError : Prop :=
  (∀ (flags mtype spare : Byte) (length : BitVec 16) (seq : BitVec 24) (s : State),
    s.phase = .hdr → 8 ≤ s.dlen.toNat → length.toNat < 8 →
    exec (.hdr8 flags mtype length seq spare) s = .next
      { s with
        hValid := true, hVer := flags.extractLsb' 5 3, hS := false, hType := mtype, hLen := length, hSeid := 0
        hSeq := seq, hHlen := 8, off := 0, endOff := 0, pLen := 0, clamp := false, err := .badLen
        phase := .error }) ∧
  (∀ (flags mtype spare : Byte) (length : BitVec 16) (seid : BitVec 64) (seq : BitVec 24) (s : State),
    s.phase = .hdr → 16 ≤ s.dlen.toNat → length.toNat < 16 →
    exec (.hdr16 flags mtype length seid seq spare) s = .next
      { s with
        hValid := true, hVer := flags.extractLsb' 5 3, hS := true, hType := mtype, hLen := length, hSeid := seid
        hSeq := seq, hHlen := 16, off := 0, endOff := 0, pLen := 0, clamp := false, err := .badLen
        phase := .error })

/-- R241, R242, R248: where the header step takes SHORT8 and SHORT16, as a step on the buffer and as `exec` of either
header; the tests are in order, so below 8 bytes it is SHORT8 whatever byte 0 holds. -/
def Obligations.ShortDatagramRaisesItsCause : Prop :=
  ∀ (s : State) (rest : List Turn), s.phase = .hdr →
    let shortState (c : ErrCode) (u : State) : State :=
      { u with
        hValid := false, hVer := 0, hS := false, hType := 0, hLen := 0, hSeid := 0, hSeq := 0, hHlen := 0
        off := 0, endOff := 0, pLen := 0, clamp := false, err := c, phase := .error }
    (s.dlen.toNat < 8 →
      step { s with schedule := .parser :: rest } = .next (shortState .short8 { s with schedule := rest }) ∧
      (∀ flags mtype length seq spare, exec (.hdr8 flags mtype length seq spare) s = .next (shortState .short8 s)) ∧
      (∀ flags mtype length seid seq spare,
        exec (.hdr16 flags mtype length seid seq spare) s = .next (shortState .short8 s))) ∧
    (8 ≤ s.dlen.toNat → s.dlen.toNat < 16 →
      (sessionBit (bufByte s 0) = true →
        step { s with schedule := .parser :: rest } = .next (shortState .short16 { s with schedule := rest })) ∧
      (∀ flags mtype length seid seq spare,
        exec (.hdr16 flags mtype length seid seq spare) s = .next (shortState .short16 s)))

/-- R117: a datagram of fewer than 8 bytes, or of fewer than 16 with the session flag set, gives ERROR and no field. -/
def Obligations.ShortInputNeverYieldsAPartialMessage : Prop :=
  ∀ (s : State) (rest : List Turn), s.phase = .hdr →
    (s.dlen.toNat < 8 ∨ (sessionBit (bufByte s 0) = true ∧ s.dlen.toNat < 16)) →
    ∃ t, step { s with schedule := .parser :: rest } = .next t ∧
      t.phase = .error ∧ t.hValid = false ∧ headerClear t ∧ messageView t = none

/-- R112: `HDRSTEP` on the bytes of `BUF` is `DecodeHeader(BUF[0 : DLEN], DLEN)` written to the registers case by
case; it is enabled exactly in HDR, and not any more after it; outside HDR the parser writes no header register. -/
def Obligations.HeaderStepAgreesWithDecodeHeader : Prop :=
  ∀ (s : State) (rest : List Turn),
    (s.phase = .hdr →
      ∃ t, step { s with schedule := .parser :: rest } = .next t ∧ (t.phase = .ies ∨ t.phase = .error) ∧
        t =
          match decodeHeader Config.lenBias (datagram s) with
          | .ok f payOff payEnd clamp =>
            { s with
              schedule := rest
              hValid := true, hVer := f.ver, hS := f.s, hType := f.mtype, hLen := f.length
              hSeid := if f.s then f.seid.getD 0 else 0, hSeq := f.seq, hHlen := BitVec.ofNat 5 f.hlen
              off := BitVec.ofNat 16 payOff, endOff := BitVec.ofNat 16 payEnd
              pLen := BitVec.ofNat 16 (payEnd - payOff), clamp := clamp
              err := .none, ieCount := 0, phase := .ies }
          | .badLength f =>
            { s with
              schedule := rest
              hValid := true, hVer := f.ver, hS := f.s, hType := f.mtype, hLen := f.length
              hSeid := if f.s then f.seid.getD 0 else 0, hSeq := f.seq, hHlen := BitVec.ofNat 5 f.hlen
              off := 0, endOff := 0, pLen := 0, clamp := false, err := .badLen, phase := .error }
          | .invalid c =>
            { s with
              schedule := rest
              hValid := false, hVer := 0, hS := false, hType := 0, hLen := 0, hSeid := 0, hSeq := 0, hHlen := 0
              off := 0, endOff := 0, pLen := 0, clamp := false, err := c, phase := .error }) ∧
    (s.phase ≠ .hdr → ∀ t, step { s with schedule := .parser :: rest } = .next t →
      { headerView t with off := s.off } = headerView s)

/-- R116: in every step's next state a reported header has 8 bytes exactly when its flag is 0 and 16 exactly when it is 1,
whatever the length field says. -/
def Obligations.HeaderLengthFollowsTheFlagAlone : Prop :=
  (State.reset.hValid = true → State.reset.hHlen.toNat = 8 + 8 * State.reset.hS.toNat) ∧
  ∀ s t : State, (s.hValid = true → s.hHlen.toNat = 8 + 8 * s.hS.toNat) → step s = .next t →
    t.hValid = true → t.hHlen.toNat = 8 + 8 * t.hS.toNat

/-- R88: of a record that decodes, every change of the reserved bits alone (flags bits 4, 3, 1, 0 and the spare byte of a
header; bits 7 to 4 of an instance byte) decodes too, and has one effect with it in every state. -/
def Obligations.ReservedBitsHaveNoEffect : Prop :=
  (∀ (f f' p p' : Byte) (m : List Byte) (i : Instr),
    f.extractLsb' 5 3 = f'.extractLsb' 5 3 → f.getLsbD 2 = f'.getLsbD 2 →
    m.length = (if f.getLsbD 2 then 14 else 6) → decode (.header (f :: m ++ [p])) = .ok i →
    ∃ i', decode (.header (f' :: m ++ [p'])) = .ok i' ∧ ∀ s : State, exec i' s = exec i s) ∧
  (∀ (b b' : Byte) (m : List Byte) (i : Instr),
    b.extractLsb' 0 4 = b'.extractLsb' 0 4 → m.length = 4 → decode (.element (m ++ [b])) = .ok i →
    ∃ i', decode (.element (m ++ [b'])) = .ok i' ∧ ∀ s : State, exec i' s = exec i s)

/-- R90, R96: the version, the message type and the type of a record are delivered and have no other effect; named codes
are no decode conditions. -/
def Obligations.CodesPassThroughUnexamined : Prop :=
  (∀ (f f' m m' spare : Byte) (length : BitVec 16) (seq : BitVec 24) (s a b : State),
    exec (.hdr8 f m length seq spare) s = .next a → exec (.hdr8 f' m' length seq spare) s = .next b →
    { a with hVer := 0, hType := 0 } = { b with hVer := 0, hType := 0 } ∧
    (s.phase = .hdr → 8 ≤ s.dlen.toNat → a.hVer = f.extractLsb' 5 3 ∧ a.hType = m)) ∧
  (∀ (f f' m m' spare : Byte) (length : BitVec 16) (seid : BitVec 64) (seq : BitVec 24) (s a b : State),
    exec (.hdr16 f m length seid seq spare) s = .next a → exec (.hdr16 f' m' length seid seq spare) s = .next b →
    { a with hVer := 0, hType := 0 } = { b with hVer := 0, hType := 0 } ∧
    (s.phase = .hdr → 16 ≤ s.dlen.toNat → a.hVer = f.extractLsb' 5 3 ∧ a.hType = m)) ∧
  (∀ (y y' length : BitVec 16) (ib : Byte) (s a b : State),
    exec (.ie y length ib) s = .next a → exec (.ie y' length ib) s = .next b →
    { a with ieType := 0 } = { b with ieType := 0 } ∧ (s.ieValid = false → a.ieValid = true → a.ieType = y))

/-! ### The record extractor -/

/-- R133: `IE` completes where it is enabled and the record is whole; it writes the six registers and sets `IE_VALID`,
and nothing else: no byte of `BUF`, no `ERR`. -/
def Obligations.IeEmitsAWholeRecord : Prop :=
  ∀ (type length : BitVec 16) (instByte : Byte) (s : State),
    s.phase = .ies → s.ieValid = false → s.off.toNat + 5 + length.toNat ≤ s.endOff.toNat →
    exec (.ie type length instByte) s = .next
      { s with
        ieType := type, ieLen := length, ieInst := instByte.extractLsb' 0 4
        ieVoff := BitVec.ofNat 16 (s.off.toNat + 5), ieCount := s.ieCount + 1
        off := BitVec.ofNat 16 (s.off.toNat + 5 + length.toNat), ieValid := true }

/-- R133, R135: `IE` on a record that is not whole ends the sequence: `PHASE` alone changes. -/
def Obligations.IeNotWholeEndsTheSequence : Prop :=
  ∀ (type length : BitVec 16) (instByte : Byte) (s : State),
    s.phase = .ies → s.ieValid = false → s.endOff.toNat < s.off.toNat + 5 + length.toNat →
    exec (.ie type length instByte) s = .next { s with phase := .done }

/-- R134: with fewer than 5 bytes before `END` the step reads nothing and sets `PHASE` to DONE. -/
def Obligations.NoMiniHeaderLeftStopsSilently : Prop :=
  ∀ (s : State) (rest : List Turn),
    s.phase = .ies → s.ieValid = false → s.endOff.toNat - s.off.toNat < 5 →
    parserFetch s = .noHeader ∧
    step { s with schedule := .parser :: rest } = .next { s with schedule := rest, phase := .done }

/-- R135: a record whose length is more than the bytes after its mini-header is not emitted, not even in part, and
`PHASE` becomes DONE; nothing else changes. -/
def Obligations.TruncatedRecordIsDroppedSilently : Prop :=
  ∀ (s : State) (rest : List Turn),
    s.phase = .ies → s.ieValid = false → s.endOff.toNat ≤ s.dlen.toNat → 5 ≤ s.endOff.toNat - s.off.toNat →
    s.endOff.toNat - s.off.toNat - 5 < (be16 (bufByte s (s.off.toNat + 2)) (bufByte s (s.off.toNat + 3))).toNat →
    step { s with schedule := .parser :: rest } = .next { s with schedule := rest, phase := .done }

/-- R132: `IESTEP` on the bytes of `BUF` emits the whole record at `OFF`; it is disabled after that until `NEXT`. -/
def Obligations.IeStepEmitsTheRecordAtOff : Prop :=
  ∀ (s : State) (rest : List Turn),
    let o := s.off.toNat
    let l := be16 (bufByte s (o + 2)) (bufByte s (o + 3))
    s.phase = .ies → s.ieValid = false → s.endOff.toNat ≤ s.dlen.toNat → o + 5 + l.toNat ≤ s.endOff.toNat →
    ∃ t, step { s with schedule := .parser :: rest } = .next t ∧
      t = { s with
        schedule := rest
        ieType := be16 (bufByte s o) (bufByte s (o + 1)), ieLen := l, ieInst := (bufByte s (o + 4)).extractLsb' 0 4
        ieVoff := BitVec.ofNat 16 (o + 5), ieCount := s.ieCount + 1
        off := BitVec.ofNat 16 (o + 5 + l.toNat), ieValid := true } ∧
      recordView t = some
        { type := be16 (bufByte s o) (bufByte s (o + 1)), length := l, inst := (bufByte s (o + 4)).extractLsb' 0 4
          value := bufBytes s (o + 5) l.toNat } ∧
      parserFetch t = .notEnabled

/-- R142: from the state a successful header step leaves, a host that answers every record with `NEXT` sees
exactly `DecodeAll` of the payload, in order, and the run ends in DONE with `IE_COUNT` that list's length; a host that
stops early saw a prefix. -/
def Obligations.HostSeesExactlyDecodeAll : Prop :=
  ∀ s : State, s.Inv → s.phase = .ies → s.ieValid = false → s.off.toNat = s.hHlen.toNat → s.ieCount = 0 →
    (takeAllRecords 13106 s).1 = decodeAll (payload s) ∧
    (takeAllRecords 13106 s).2.phase = .done ∧
    (takeAllRecords 13106 s).2.ieCount.toNat = (decodeAll (payload s)).length ∧
    ∀ n, (takeAllRecords n s).1 <+: decodeAll (payload s)

/-- R191, R193, R283: from any state with the invariant in IDLE, a host that loads a datagram of any size (its first 65536
bytes), sets its length, starts, and takes every record has in `BUF` exactly those bytes. The header result (all of R193's
registers) is what `DecodeHeader` of the whole datagram gives (R110, R112). Where that is `Ok` the host sees exactly
`DecodeAll` of the payload it delimits, ending in DONE; where it is `BadLength` or `Invalid` it sees no record, and the run
ends in ERROR. -/
def Obligations.DatagramComesThroughToItsRecords : Prop :=
  ∀ (d : List Byte) (s : State), s.Inv → s.phase = .idle →
    ∃ h p, afterTurns (openingTurns d) s = some h ∧ datagram h = d.take 65536 ∧ afterTurn .parser h = some p ∧
      match decodeHeader Config.lenBias d with
      | .ok f o e c =>
        headerView p =
          { err := .none, hValid := true, hVer := f.ver, hS := f.s, hType := f.mtype, hLen := f.length
            hSeid := f.seid.getD 0, hSeq := f.seq, hHlen := BitVec.ofNat 5 f.hlen
            pLen := BitVec.ofNat 16 (e - o), off := BitVec.ofNat 16 o, endOff := BitVec.ofNat 16 e, clamp := c } ∧
        p.hHlen.toNat = f.hlen ∧ p.off.toNat = o ∧ p.endOff.toNat = e ∧ p.pLen.toNat = e - o ∧ p.phase = .ies ∧
        (takeAllRecords 13106 p).1 = decodeAll (slice d o e) ∧ (takeAllRecords 13106 p).2.phase = .done
      | .badLength f =>
        headerView p =
          { err := .badLen, hValid := true, hVer := f.ver, hS := f.s, hType := f.mtype, hLen := f.length
            hSeid := f.seid.getD 0, hSeq := f.seq, hHlen := BitVec.ofNat 5 f.hlen
            pLen := 0, off := 0, endOff := 0, clamp := false } ∧
        p.hHlen.toNat = f.hlen ∧ p.phase = .error ∧
        (takeAllRecords 13106 p).1 = [] ∧ (takeAllRecords 13106 p).2.phase = .error
      | .invalid c =>
        headerView p =
          { err := c, hValid := false, hVer := 0, hS := false, hType := 0, hLen := 0, hSeid := 0, hSeq := 0, hHlen := 0
            pLen := 0, off := 0, endOff := 0, clamp := false } ∧
        messageView p = none ∧ p.phase = .error ∧
        (takeAllRecords 13106 p).1 = [] ∧ (takeAllRecords 13106 p).2.phase = .error

/-- R131, R167: every record of the sequence has exactly as many value bytes as its length says, and the sequence has at
most one record per 5 bytes. -/
def Obligations.DecodeAllRecordsAreExactAndBounded : Prop :=
  ∀ p : List Byte,
    (∀ r ∈ decodeAll p, r.value.length = r.length.toNat) ∧ 5 * (decodeAll p).length ≤ p.length

/-- R143: decoding the encoding of one record gives that record. -/
def Obligations.SingleRecordRoundTrip : Prop :=
  ∀ (t : BitVec 16) (v : List Byte) (i : BitVec 4), v.length ≤ 65535 →
    (encodeIe t v i).map decodeAll = some [{ type := t, length := BitVec.ofNat 16 v.length, inst := i, value := v }]

/-- R145: encoded records one after another, followed by bytes that do not start a whole record, decode to those records
and nothing else. -/
def Obligations.ConcatenatedRecordsDecodeInOrder : Prop :=
  ∀ (rs : List IeRecord) (f : List Byte), (∀ r ∈ rs, r.value.length = r.length.toNat) →
    (f.length < 5 ∨ f.length - 5 < (be16At f 2).toNat) →
    decodeAll (rs.flatMap (fun r => (encodeIe r.type r.value r.inst).getD []) ++ f) = rs

/-- R118: whatever payload follows, an encoded header decodes to the fields it was made from; BADLEN exactly when the
payload length told to the encoder is below 4. -/
def Obligations.EncodedHeaderFieldsRoundTrip : Prop :=
  ∀ (mtype : Byte) (plen : BitVec 16) (seq : BitVec 24) (seid : Option (BitVec 64)) (hdr pay : List Byte),
    encodeHeader mtype plen seq seid = some hdr →
    ∃ f : HeaderFields,
      f.mtype = mtype ∧ f.seq = seq ∧ f.s = seid.isSome ∧ f.seid = seid ∧ f.ver = 1 ∧
      (plen.toNat < 4 → decodeHeader 0 (hdr ++ pay) = .badLength f) ∧
      (4 ≤ plen.toNat → ∃ o e c, decodeHeader 0 (hdr ++ pay) = .ok f o e c)

/-- The open parameter `LEN_BIAS` at 4, the encode contract's reading (C1, D16; never the block's): an encoded header
followed by the payload it was told of gives the payload back whole and unclamped. -/
def Obligations.LenBiasFourReturnsThePayloadWhole : Prop :=
  ∀ (mtype : Byte) (plen : BitVec 16) (seq : BitVec 24) (seid : Option (BitVec 64)) (hdr pay : List Byte),
    encodeHeader mtype plen seq seid = some hdr → pay.length = plen.toNat →
    payloadOf (hdr ++ pay) (decodeHeader 4 (hdr ++ pay)) = some pay ∧
    ∃ f o e, decodeHeader 4 (hdr ++ pay) = .ok f o e false

/-- R283: a datagram cut to 65536 bytes gives the same result and the same payload. -/
def Obligations.CuttingALongDatagramChangesNoResult : Prop :=
  ∀ d : List Byte, 65536 ≤ d.length →
    decodeHeader 0 (d.take 65536) = decodeHeader 0 d ∧
    payloadOf (d.take 65536) (decodeHeader 0 (d.take 65536)) = payloadOf d (decodeHeader 0 d)

/-! ### The host's commands and reads -/

/-- R181: `LOAD(a, b)` in IDLE stores `b` at `a` and changes no other byte and no register; elsewhere it is rejected. -/
def Obligations.LoadStoresOneByteInIdle : Prop :=
  ∀ (a : BitVec 16) (b : Byte) (s : State),
    (s.phase = .idle → ∃ t, exec (.load a b) s = .next t ∧ t = { s with buf := t.buf } ∧ bufByte t a.toNat = b ∧
      ∀ x, x ≠ a.toNat → bufByte t x = bufByte s x) ∧
    (s.phase ≠ .idle → exec (.load a b) s = .next { s with proto := true })

/-- R181: the order of loads at different offsets is free, and of two at one offset the last is kept: equal memories are
equal data. -/
def Obligations.LoadOrderIsFreeAndLastLoadWins : Prop :=
  ∀ (a a' : BitVec 16) (b b' : Byte) (s t u : State), Memory.wf s.buf → s.phase = .idle →
    exec (.load a b) s = .next t → exec (.load a' b') s = .next u →
    (a ≠ a' → exec (.load a' b') t = exec (.load a b) u) ∧
    exec (.load a b') t = exec (.load a b') s

/-- R182: `SETLEN(n)`, a write of register 0x02, sets `DLEN` in IDLE for `n` up to 65536; otherwise it is rejected. -/
def Obligations.SetlenSetsDlenUpToTheCapacity : Prop :=
  ∀ (n : PortData) (s : State),
    decode (.access (.regWrite 0x02 n)) = .ok (.setlen n) ∧
    (s.phase = .idle → n.toNat ≤ 65536 →
      ∃ t, exec (.setlen n) s = .next t ∧ t = { s with dlen := t.dlen } ∧ t.dlen.toNat = n.toNat) ∧
    (s.phase ≠ .idle ∨ 65537 ≤ n.toNat → exec (.setlen n) s = .next { s with proto := true })

/-- R183: `START`, a write of `CMD` with bits [1:0] = 1: in IDLE it makes `PHASE` HDR and `BUSY` 1 and changes nothing
else; elsewhere it is rejected. In a state with the invariant all result registers are at their reset values then. -/
def Obligations.StartOpensARunInIdle : Prop :=
  ∀ (v : PortData) (s : State),
    (v.extractLsb' 0 2 = 1 → decode (.access (.regWrite 0x00 v)) = .ok (.start v)) ∧
    (s.phase = .idle → exec (.start v) s = .next { s with phase := .hdr } ∧
      (status { s with phase := .hdr }).getLsbD 10 = true ∧
      (s.Inv → headerView { s with phase := .hdr } = headerView State.reset ∧ s.ieValid = false ∧ recordClear s ∧
        s.ieCount = 0)) ∧
    (s.phase ≠ .idle → exec (.start v) s = .next { s with proto := true })

/-- R184: `NEXT`, a write of `CMD` with bits [1:0] = 2: with `IE_VALID` = 1 it clears `IE_VALID` and the four record
registers and changes nothing else, and the parser's step is enabled again; with `IE_VALID` = 0 it is rejected. -/
def Obligations.NextReleasesThePresentedRecord : Prop :=
  ∀ (v : PortData) (s : State),
    (v.extractLsb' 0 2 = 2 → decode (.access (.regWrite 0x00 v)) = .ok (.next v)) ∧
    (s.ieValid = true →
      exec (.next v) s = .next { s with ieValid := false, ieType := 0, ieLen := 0, ieInst := 0, ieVoff := 0 } ∧
      (s.Inv → busy { s with ieValid := false, ieType := 0, ieLen := 0, ieInst := 0, ieVoff := 0 } = true)) ∧
    (s.ieValid = false → exec (.next v) s = .next { s with proto := true })

/-- R185, R273: `CLEAR`, a write of `CMD` with bits [1:0] = 3, gives in every phase the reset state, except that `BUF`,
`DLEN` and `PROTO` (and the model's own four fields, log entries 2, 3 and 6) keep their values; it is the way out of ERROR (R250). -/
def Obligations.ClearIsResetButForBufDlenProto : Prop :=
  ∀ (v : PortData) (s : State),
    (v.extractLsb' 0 2 = 3 → decode (.access (.regWrite 0x00 v)) = .ok (.clear v)) ∧
    exec (.clear v) s = .next
      { State.reset with
        buf := s.buf, dlen := s.dlen, proto := s.proto
        schedule := s.schedule, regData := s.regData, bufData := s.bufData, epoch := s.epoch }

/-- R186: `NOP`, any write of `CMD` with bits [1:0] = 0, does nothing and is never rejected. -/
def Obligations.NopDoesNothing : Prop :=
  ∀ (v : PortData) (s : State),
    (v.extractLsb' 0 2 = 0 → decode (.access (.regWrite 0x00 v)) = .ok (.nop v)) ∧ exec (.nop v) s = .next s

/-- R187, R46: `RDREG(k)` returns register `k` of the map zero-extended, 0 for `CMD` and for every unassigned number, and
changes no state of the block, in any phase. That what the port returned stands in `regData` is the model's choice (log
entry 6). -/
def Obligations.RdregReturnsTheRegisterZeroExtended : Prop :=
  ∀ (k : Nat) (s : State), ∃ v : PortData,
    exec (.rdreg k) s = .next { s with regData := some v } ∧
    (k = 0x01 → v.toNat = (status s).toNat) ∧ (k = 0x02 → v.toNat = s.dlen.toNat) ∧
    (k = 0x03 → v.toNat = s.off.toNat) ∧ (k = 0x04 → v.toNat = s.endOff.toNat) ∧
    (k = 0x08 → v.toNat = s.hVer.toNat) ∧ (k = 0x09 → v.toNat = s.hS.toNat) ∧
    (k = 0x0A → v.toNat = s.hType.toNat) ∧ (k = 0x0B → v.toNat = s.hLen.toNat) ∧
    (k = 0x0C → v.toNat = s.hSeid.toNat) ∧ (k = 0x0D → v.toNat = s.hSeq.toNat) ∧
    (k = 0x0E → v.toNat = s.hHlen.toNat) ∧ (k = 0x0F → v.toNat = s.pLen.toNat) ∧
    (k = 0x10 → v.toNat = s.ieType.toNat) ∧ (k = 0x11 → v.toNat = s.ieLen.toNat) ∧
    (k = 0x12 → v.toNat = s.ieInst.toNat) ∧ (k = 0x13 → v.toNat = s.ieVoff.toNat) ∧
    (k = 0x14 → v.toNat = s.ieCount.toNat) ∧
    (k = 0x00 ∨ 0x05 ≤ k ∧ k ≤ 0x07 ∨ 0x15 ≤ k → v = 0)

/-- R188: `RDBUF(a)` returns `BUF[a]`, in any phase, and changes no state of the block; a byte never loaded since reset
reads as an unspecified value (R74), the free value of log entry 1. That what the port returned stands in `bufData` is the
model's choice (log entry 6). -/
def Obligations.RdbufReturnsTheByte : Prop :=
  ∀ (a : BitVec 16) (s : State), ∃ b : Byte,
    exec (.rdbuf a) s = .next { s with bufData := some b } ∧ b = bufByte s a.toNat ∧
    (∀ c, s.buf.cell? a.toNat = some c → b = c) ∧
    (s.buf.cell? a.toNat = none → b = Config.unloadedByte s.epoch a.toNat)

/-- R189: a write to any register but `CMD` and `DLEN` is rejected, always. -/
def Obligations.OtherRegisterWritesAreRejected : Prop :=
  ∀ (k : Nat) (v : PortData) (s : State) (rest : List Turn), k ≠ 0x00 → k ≠ 0x02 →
    step { s with schedule := .host (.regWrite k v) :: rest } = .next { s with schedule := rest, proto := true }

/-- R190: the rejected accesses are exactly those of the rule; each changes `PROTO` alone; an access that is not rejected
leaves `PROTO` as it is; and `PROTO` stays 1 until reset. -/
def Obligations.RejectedAccessChangesProtoAlone : Prop :=
  (∀ (a : HostAccess) (s : State) (rest : List Turn),
    (accessRejected s a →
      step { s with schedule := .host a :: rest } = .next { s with schedule := rest, proto := true }) ∧
    (¬ accessRejected s a → ∃ t, step { s with schedule := .host a :: rest } = .next t ∧ t.proto = s.proto)) ∧
  (∀ s t : State, step s = .next t → s.proto = true → s.schedule.head? ≠ some .reset → t.proto = true)

/-- R92, R93, R96, R99: each named code standing alone selects nothing: its `exec` answers the same state; and its value
is the one the rules name. -/
def Obligations.NamedCodesSelectNothing : Prop :=
  (∀ s : State,
    exec .msgtype1 s = .next s ∧ exec .msgtype2 s = .next s ∧ exec .msgtype50 s = .next s ∧
    exec .msgtype51 s = .next s ∧ exec .ietype1 s = .next s ∧ exec .ietype3 s = .next s ∧
    exec .ietype19 s = .next s ∧ exec .ietype60 s = .next s ∧ exec .ietype96 s = .next s ∧
    exec .causeAccepted s = .next s) ∧
  (∀ v,
    (decode (.code .messageType v) = .ok .msgtype1 ↔ v = 1) ∧ (decode (.code .messageType v) = .ok .msgtype2 ↔ v = 2) ∧
    (decode (.code .messageType v) = .ok .msgtype50 ↔ v = 50) ∧
    (decode (.code .messageType v) = .ok .msgtype51 ↔ v = 51) ∧
    (decode (.code .ieType v) = .ok .ietype1 ↔ v = 1) ∧ (decode (.code .ieType v) = .ok .ietype3 ↔ v = 3) ∧
    (decode (.code .ieType v) = .ok .ietype19 ↔ v = 19) ∧ (decode (.code .ieType v) = .ok .ietype60 ↔ v = 60) ∧
    (decode (.code .ieType v) = .ok .ietype96 ↔ v = 96) ∧
    (decode (.code .causeValue v) = .ok .causeAccepted ↔ v = 1))

/-! ### The run as a whole -/

/-- R72, R20: outside IDLE no step but reset changes `DLEN` or any byte of `BUF`; in IDLE too the parser changes
neither. -/
def Obligations.DatagramIsConstantDuringARun : Prop :=
  ∀ s t : State, step s = .next t → s.schedule.head? ≠ some .reset →
    (s.phase ≠ .idle ∨ s.schedule = [] ∨ s.schedule.head? = some .parser) →
    t.dlen = s.dlen ∧ t.buf = s.buf ∧ ∀ a, bufByte t a = bufByte s a

/-- R70, R74: a byte of `BUF`, loaded or not, reads the same after any step but reset and a `LOAD` to its offset; after a
`LOAD` in IDLE it reads as loaded. -/
def Obligations.BufByteChangesOnlyByItsLoad : Prop :=
  ∀ (s t : State) (x : Nat), step s = .next t → s.schedule.head? ≠ some .reset →
    ((∀ a b, s.schedule.head? = some (.host (.bufWrite a b)) → a.toNat ≠ x) → bufByte t x = bufByte s x) ∧
    (∀ a b, s.schedule.head? = some (.host (.bufWrite a b)) → s.phase = .idle → bufByte t a.toNat = b)

/-- R161: within a run `OFF` never moves backward, and moves in the three ways of the rule alone. -/
def Obligations.OffMovesForwardInThreeWays : Prop :=
  ∀ s t : State, s.Inv → step s = .next t → t.phase ≠ .idle →
    s.off.toNat ≤ t.off.toNat ∧
    (t.off = s.off ∨ (s.phase = .hdr ∧ t.phase = .ies ∧ t.off.toNat = 8 + 8 * t.hS.toNat) ∨
      (s.phase = .ies ∧ s.ieValid = false ∧ t.ieValid = true ∧ t.off.toNat = s.off.toNat + 5 + t.ieLen.toNat))

/-- R290: an enabled parser step stays enabled, and stays the same step, through every host access but `CLEAR`. -/
def Obligations.EnabledParserStepStaysEnabled : Prop :=
  ∀ (s : State) (a : HostAccess) (rest : List Turn), busy s = true → ¬ isClear a →
    ∃ t, step { s with schedule := .host a :: rest } = .next t ∧ busy t = true ∧ parserFetch t = parserFetch s

/-- R192: in DONE and ERROR no parser step is enabled, and no step but `CLEAR` and reset leaves them. That a step with no
turn scheduled then answers the same state is the model's choice (log entries 3 and 4). -/
def Obligations.EndedRunStaysEnded : Prop :=
  ∀ s : State, runEnded s = true →
    parserFetch s = .notEnabled ∧ step { s with schedule := [] } = .next { s with schedule := [] } ∧
    ∀ t, step s = .next t → s.schedule.head? ≠ some .reset →
      (∀ a, s.schedule.head? = some (.host a) → ¬ isClear a) → t.phase = s.phase

/-- R193: the header result and the records are a function of the bytes below `DLEN` alone: two runs over the same
datagram give the same, whatever else differs. -/
def Obligations.RunDependsOnTheDatagramAlone : Prop :=
  ∀ s u s' u' : State, s.Inv → u.Inv → s.phase = .hdr → u.phase = .hdr → datagram s = datagram u →
    afterTurn .parser s = some s' → afterTurn .parser u = some u' →
    headerView s' = headerView u' ∧ ∀ n, (takeAllRecords n s').1 = (takeAllRecords n u').1

/-- R194: after a run, taken as far as one likes, `CLEAR` and `START` decode the same bytes to the same header result and
the same records. -/
def Obligations.ClearThenStartRunsTheSameAgain : Prop :=
  ∀ (s p c h q : State) (n : Nat), s.Inv → s.phase = .hdr →
    afterTurn .parser s = some p →
    afterTurn (.host (.regWrite 0x00 3)) (takeAllRecords n p).2 = some c →
    afterTurn (.host (.regWrite 0x00 1)) c = some h →
    afterTurn .parser h = some q →
    headerView q = headerView p ∧ ∀ m, (takeAllRecords m q).1 = (takeAllRecords m p).1

/-- R193, R190, R68: a host access other than `CLEAR`, and other than `NEXT` while a record is presented, made outside
IDLE, changes nothing a run depends on (`runView` leaves out `PROTO` and the model's own `schedule`,
`regData` and `bufData`, log entries 3 and 6); and the parser's turn depends on nothing else. So the interleaving of such
accesses changes no result. -/
def Obligations.InterleavedAccessesDoNotDisturbARun : Prop :=
  (∀ (s t : State) (a : HostAccess) (rest : List Turn), s.phase ≠ .idle → ¬ isClear a →
    (isNext a → s.ieValid = false) → step { s with schedule := .host a :: rest } = .next t →
    runView t = runView s) ∧
  (∀ s u s' : State, runView s = runView u → parserTurn s = .next s' →
    ∃ u', parserTurn u = .next u' ∧ runView s' = runView u')

/-- R42, R259: nothing the block does depends on `PROTO`: with it set or clear a step does the same, but that a read of
`STATUS` returns it (R44), and a set `PROTO` stays set but for reset. -/
def Obligations.ProtoDecidesNothing : Prop :=
  ∀ s t : State, step { s with proto := false } = .next t →
    (s.schedule.head? = some .reset → step { s with proto := true } = .next t ∧ t.proto = false) ∧
    (s.schedule.head? ≠ some .reset → ∃ v,
      step { s with proto := true } = .next { t with proto := true, regData := v } ∧
      (s.schedule.head? ≠ some (.host (.regRead 0x01)) → v = t.regData))

/-- The model's choice (log entry 5): the meaning of a record whose parser step is not enabled (R112, R132) answers the
same state. -/
def Obligations.RecordStepNotEnabledDoesNotHappen : Prop :=
  (∀ flags mtype length seq spare (s : State), s.phase ≠ .hdr →
    exec (.hdr8 flags mtype length seq spare) s = .next s) ∧
  (∀ flags mtype length seid seq spare (s : State), s.phase ≠ .hdr →
    exec (.hdr16 flags mtype length seid seq spare) s = .next s) ∧
  (∀ type length instByte (s : State), (s.phase ≠ .ies ∨ s.ieValid = true) →
    exec (.ie type length instByte) s = .next s)

/-- The model's choice (log entries 3 and 4): with no turn scheduled the parser's enabled step is taken, and where none
is enabled the block waits unchanged. -/
def Obligations.EmptyScheduleLetsTheParserMove : Prop :=
  ∀ s : State, s.schedule = [] →
    step s = parserTurn s ∧ (busy s = false → step s = .next s) ∧ (busy s = true → step s ≠ .next s)
end

