-- ==== Sys2Proof/Laws/Bits.lean ====
section
/-! SUPPORT. Bytes of a field and fields of bytes (R62, R63): each undoes the other. -/

namespace Sys2Proof

theorem be16_fieldBytes (v : BitVec 16) : be16 (fieldByte 1 v) (fieldByte 0 v) = v := by
  unfold be16 fieldByte
  rw [BitVec.extractLsb'_append_extractLsb'_eq_extractLsb' (by decide)]
  simp

theorem be24_fieldBytes (v : BitVec 24) : be24 (fieldByte 2 v) (fieldByte 1 v) (fieldByte 0 v) = v := by
  unfold be24 fieldByte
  repeat rw [BitVec.extractLsb'_append_extractLsb'_eq_extractLsb' (by decide)]
  simp

theorem be64_fieldBytes (v : BitVec 64) :
    be64 (fieldByte 7 v) (fieldByte 6 v) (fieldByte 5 v) (fieldByte 4 v) (fieldByte 3 v) (fieldByte 2 v)
      (fieldByte 1 v) (fieldByte 0 v) = v := by
  unfold be64 fieldByte
  repeat rw [BitVec.extractLsb'_append_extractLsb'_eq_extractLsb' (by decide)]
  simp

theorem fieldByte_append_low {n : Nat} (x : BitVec n) (b : Byte) : fieldByte 0 (x ++ b) = b := by
  apply BitVec.eq_of_getLsbD_eq
  intro i hi
  simp [fieldByte, BitVec.getLsbD_append, hi]

theorem fieldByte_append_high {n : Nat} (k : Nat) (x : BitVec n) (b : Byte) :
    fieldByte (k + 1) (x ++ b) = fieldByte k x := by
  apply BitVec.eq_of_getLsbD_eq
  intro i hi
  have h1 : ¬ 8 * (k + 1) + i < 8 := by omega
  have h2 : 8 * (k + 1) + i - 8 = 8 * k + i := by omega
  simp [fieldByte, BitVec.getLsbD_append, hi, h1, h2]

theorem fieldByte_self (b : Byte) : fieldByte 0 b = b := by simp [fieldByte]

theorem bytes16_be16 (b1 b0 : Byte) : bytes16 (be16 b1 b0) = [b1, b0] := by
  simp [bytes16, be16, fieldByte_append_low, fieldByte_append_high _ b1, fieldByte_self]

theorem bytes24_be24 (b2 b1 b0 : Byte) : bytes24 (be24 b2 b1 b0) = [b2, b1, b0] := by
  simp [bytes24, be24, fieldByte_append_low, fieldByte_append_high 0, fieldByte_append_high 1, fieldByte_self]

theorem bytes64_be64 (b7 b6 b5 b4 b3 b2 b1 b0 : Byte) :
    bytes64 (be64 b7 b6 b5 b4 b3 b2 b1 b0) = [b7, b6, b5, b4, b3, b2, b1, b0] := by
  simp [bytes64, be64, fieldByte_append_low, fieldByte_append_high 0, fieldByte_append_high 1,
    fieldByte_append_high 2, fieldByte_append_high 3, fieldByte_append_high 4, fieldByte_append_high 5,
    fieldByte_append_high 6, fieldByte_self]

theorem append_byte_toNat {n : Nat} (x : BitVec n) (b : Byte) : (x ++ b).toNat = x.toNat * 256 + b.toNat := by
  rw [BitVec.toNat_append, ← Nat.shiftLeft_add_eq_or_of_lt b.isLt, Nat.shiftLeft_eq]
end Sys2Proof
end

