-- ==== Sys2Proof/Laws/State.lean ====
section
/-! SUPPORT. One lemma per field per update of the state: what each named operation leaves in each field. -/

namespace Sys2Proof.Machine

@[simp] theorem memWrite_buf (a : BitVec 16) (b : Byte) (s : State) : (memWrite a b s).buf = s.buf.put a.toNat b := rfl
@[simp] theorem memWrite_dlen (a : BitVec 16) (b : Byte) (s : State) : (memWrite a b s).dlen = s.dlen := rfl
@[simp] theorem memWrite_phase (a : BitVec 16) (b : Byte) (s : State) : (memWrite a b s).phase = s.phase := rfl
@[simp] theorem memWrite_off (a : BitVec 16) (b : Byte) (s : State) : (memWrite a b s).off = s.off := rfl
@[simp] theorem memWrite_endOff (a : BitVec 16) (b : Byte) (s : State) : (memWrite a b s).endOff = s.endOff := rfl
@[simp] theorem memWrite_hValid (a : BitVec 16) (b : Byte) (s : State) : (memWrite a b s).hValid = s.hValid := rfl
@[simp] theorem memWrite_hVer (a : BitVec 16) (b : Byte) (s : State) : (memWrite a b s).hVer = s.hVer := rfl
@[simp] theorem memWrite_hS (a : BitVec 16) (b : Byte) (s : State) : (memWrite a b s).hS = s.hS := rfl
@[simp] theorem memWrite_hType (a : BitVec 16) (b : Byte) (s : State) : (memWrite a b s).hType = s.hType := rfl
@[simp] theorem memWrite_hLen (a : BitVec 16) (b : Byte) (s : State) : (memWrite a b s).hLen = s.hLen := rfl
@[simp] theorem memWrite_hSeid (a : BitVec 16) (b : Byte) (s : State) : (memWrite a b s).hSeid = s.hSeid := rfl
@[simp] theorem memWrite_hSeq (a : BitVec 16) (b : Byte) (s : State) : (memWrite a b s).hSeq = s.hSeq := rfl
@[simp] theorem memWrite_hHlen (a : BitVec 16) (b : Byte) (s : State) : (memWrite a b s).hHlen = s.hHlen := rfl
@[simp] theorem memWrite_pLen (a : BitVec 16) (b : Byte) (s : State) : (memWrite a b s).pLen = s.pLen := rfl
@[simp] theorem memWrite_ieValid (a : BitVec 16) (b : Byte) (s : State) : (memWrite a b s).ieValid = s.ieValid := rfl
@[simp] theorem memWrite_ieType (a : BitVec 16) (b : Byte) (s : State) : (memWrite a b s).ieType = s.ieType := rfl
@[simp] theorem memWrite_ieLen (a : BitVec 16) (b : Byte) (s : State) : (memWrite a b s).ieLen = s.ieLen := rfl
@[simp] theorem memWrite_ieInst (a : BitVec 16) (b : Byte) (s : State) : (memWrite a b s).ieInst = s.ieInst := rfl
@[simp] theorem memWrite_ieVoff (a : BitVec 16) (b : Byte) (s : State) : (memWrite a b s).ieVoff = s.ieVoff := rfl
@[simp] theorem memWrite_ieCount (a : BitVec 16) (b : Byte) (s : State) : (memWrite a b s).ieCount = s.ieCount := rfl
@[simp] theorem memWrite_err (a : BitVec 16) (b : Byte) (s : State) : (memWrite a b s).err = s.err := rfl
@[simp] theorem memWrite_clamp (a : BitVec 16) (b : Byte) (s : State) : (memWrite a b s).clamp = s.clamp := rfl
@[simp] theorem memWrite_proto (a : BitVec 16) (b : Byte) (s : State) : (memWrite a b s).proto = s.proto := rfl
@[simp] theorem memWrite_schedule (a : BitVec 16) (b : Byte) (s : State) : (memWrite a b s).schedule = s.schedule := rfl
@[simp] theorem memWrite_regData (a : BitVec 16) (b : Byte) (s : State) : (memWrite a b s).regData = s.regData := rfl
@[simp] theorem memWrite_bufData (a : BitVec 16) (b : Byte) (s : State) : (memWrite a b s).bufData = s.bufData := rfl
@[simp] theorem memWrite_epoch (a : BitVec 16) (b : Byte) (s : State) : (memWrite a b s).epoch = s.epoch := rfl

@[simp] theorem setDlen_buf (n : Nat) (s : State) : (setDlen n s).buf = s.buf := rfl
@[simp] theorem setDlen_dlen (n : Nat) (s : State) : (setDlen n s).dlen = BitVec.ofNat 17 n := rfl
@[simp] theorem setDlen_phase (n : Nat) (s : State) : (setDlen n s).phase = s.phase := rfl
@[simp] theorem setDlen_off (n : Nat) (s : State) : (setDlen n s).off = s.off := rfl
@[simp] theorem setDlen_endOff (n : Nat) (s : State) : (setDlen n s).endOff = s.endOff := rfl
@[simp] theorem setDlen_hValid (n : Nat) (s : State) : (setDlen n s).hValid = s.hValid := rfl
@[simp] theorem setDlen_hVer (n : Nat) (s : State) : (setDlen n s).hVer = s.hVer := rfl
@[simp] theorem setDlen_hS (n : Nat) (s : State) : (setDlen n s).hS = s.hS := rfl
@[simp] theorem setDlen_hType (n : Nat) (s : State) : (setDlen n s).hType = s.hType := rfl
@[simp] theorem setDlen_hLen (n : Nat) (s : State) : (setDlen n s).hLen = s.hLen := rfl
@[simp] theorem setDlen_hSeid (n : Nat) (s : State) : (setDlen n s).hSeid = s.hSeid := rfl
@[simp] theorem setDlen_hSeq (n : Nat) (s : State) : (setDlen n s).hSeq = s.hSeq := rfl
@[simp] theorem setDlen_hHlen (n : Nat) (s : State) : (setDlen n s).hHlen = s.hHlen := rfl
@[simp] theorem setDlen_pLen (n : Nat) (s : State) : (setDlen n s).pLen = s.pLen := rfl
@[simp] theorem setDlen_ieValid (n : Nat) (s : State) : (setDlen n s).ieValid = s.ieValid := rfl
@[simp] theorem setDlen_ieType (n : Nat) (s : State) : (setDlen n s).ieType = s.ieType := rfl
@[simp] theorem setDlen_ieLen (n : Nat) (s : State) : (setDlen n s).ieLen = s.ieLen := rfl
@[simp] theorem setDlen_ieInst (n : Nat) (s : State) : (setDlen n s).ieInst = s.ieInst := rfl
@[simp] theorem setDlen_ieVoff (n : Nat) (s : State) : (setDlen n s).ieVoff = s.ieVoff := rfl
@[simp] theorem setDlen_ieCount (n : Nat) (s : State) : (setDlen n s).ieCount = s.ieCount := rfl
@[simp] theorem setDlen_err (n : Nat) (s : State) : (setDlen n s).err = s.err := rfl
@[simp] theorem setDlen_clamp (n : Nat) (s : State) : (setDlen n s).clamp = s.clamp := rfl
@[simp] theorem setDlen_proto (n : Nat) (s : State) : (setDlen n s).proto = s.proto := rfl
@[simp] theorem setDlen_schedule (n : Nat) (s : State) : (setDlen n s).schedule = s.schedule := rfl
@[simp] theorem setDlen_regData (n : Nat) (s : State) : (setDlen n s).regData = s.regData := rfl
@[simp] theorem setDlen_bufData (n : Nat) (s : State) : (setDlen n s).bufData = s.bufData := rfl
@[simp] theorem setDlen_epoch (n : Nat) (s : State) : (setDlen n s).epoch = s.epoch := rfl

@[simp] theorem beginRun_buf (s : State) : (beginRun s).buf = s.buf := rfl
@[simp] theorem beginRun_dlen (s : State) : (beginRun s).dlen = s.dlen := rfl
@[simp] theorem beginRun_phase (s : State) : (beginRun s).phase = .hdr := rfl
@[simp] theorem beginRun_off (s : State) : (beginRun s).off = s.off := rfl
@[simp] theorem beginRun_endOff (s : State) : (beginRun s).endOff = s.endOff := rfl
@[simp] theorem beginRun_hValid (s : State) : (beginRun s).hValid = s.hValid := rfl
@[simp] theorem beginRun_hVer (s : State) : (beginRun s).hVer = s.hVer := rfl
@[simp] theorem beginRun_hS (s : State) : (beginRun s).hS = s.hS := rfl
@[simp] theorem beginRun_hType (s : State) : (beginRun s).hType = s.hType := rfl
@[simp] theorem beginRun_hLen (s : State) : (beginRun s).hLen = s.hLen := rfl
@[simp] theorem beginRun_hSeid (s : State) : (beginRun s).hSeid = s.hSeid := rfl
@[simp] theorem beginRun_hSeq (s : State) : (beginRun s).hSeq = s.hSeq := rfl
@[simp] theorem beginRun_hHlen (s : State) : (beginRun s).hHlen = s.hHlen := rfl
@[simp] theorem beginRun_pLen (s : State) : (beginRun s).pLen = s.pLen := rfl
@[simp] theorem beginRun_ieValid (s : State) : (beginRun s).ieValid = s.ieValid := rfl
@[simp] theorem beginRun_ieType (s : State) : (beginRun s).ieType = s.ieType := rfl
@[simp] theorem beginRun_ieLen (s : State) : (beginRun s).ieLen = s.ieLen := rfl
@[simp] theorem beginRun_ieInst (s : State) : (beginRun s).ieInst = s.ieInst := rfl
@[simp] theorem beginRun_ieVoff (s : State) : (beginRun s).ieVoff = s.ieVoff := rfl
@[simp] theorem beginRun_ieCount (s : State) : (beginRun s).ieCount = s.ieCount := rfl
@[simp] theorem beginRun_err (s : State) : (beginRun s).err = s.err := rfl
@[simp] theorem beginRun_clamp (s : State) : (beginRun s).clamp = s.clamp := rfl
@[simp] theorem beginRun_proto (s : State) : (beginRun s).proto = s.proto := rfl
@[simp] theorem beginRun_schedule (s : State) : (beginRun s).schedule = s.schedule := rfl
@[simp] theorem beginRun_regData (s : State) : (beginRun s).regData = s.regData := rfl
@[simp] theorem beginRun_bufData (s : State) : (beginRun s).bufData = s.bufData := rfl
@[simp] theorem beginRun_epoch (s : State) : (beginRun s).epoch = s.epoch := rfl

@[simp] theorem rejectAccess_buf (s : State) : (rejectAccess s).buf = s.buf := rfl
@[simp] theorem rejectAccess_dlen (s : State) : (rejectAccess s).dlen = s.dlen := rfl
@[simp] theorem rejectAccess_phase (s : State) : (rejectAccess s).phase = s.phase := rfl
@[simp] theorem rejectAccess_off (s : State) : (rejectAccess s).off = s.off := rfl
@[simp] theorem rejectAccess_endOff (s : State) : (rejectAccess s).endOff = s.endOff := rfl
@[simp] theorem rejectAccess_hValid (s : State) : (rejectAccess s).hValid = s.hValid := rfl
@[simp] theorem rejectAccess_hVer (s : State) : (rejectAccess s).hVer = s.hVer := rfl
@[simp] theorem rejectAccess_hS (s : State) : (rejectAccess s).hS = s.hS := rfl
@[simp] theorem rejectAccess_hType (s : State) : (rejectAccess s).hType = s.hType := rfl
@[simp] theorem rejectAccess_hLen (s : State) : (rejectAccess s).hLen = s.hLen := rfl
@[simp] theorem rejectAccess_hSeid (s : State) : (rejectAccess s).hSeid = s.hSeid := rfl
@[simp] theorem rejectAccess_hSeq (s : State) : (rejectAccess s).hSeq = s.hSeq := rfl
@[simp] theorem rejectAccess_hHlen (s : State) : (rejectAccess s).hHlen = s.hHlen := rfl
@[simp] theorem rejectAccess_pLen (s : State) : (rejectAccess s).pLen = s.pLen := rfl
@[simp] theorem rejectAccess_ieValid (s : State) : (rejectAccess s).ieValid = s.ieValid := rfl
@[simp] theorem rejectAccess_ieType (s : State) : (rejectAccess s).ieType = s.ieType := rfl
@[simp] theorem rejectAccess_ieLen (s : State) : (rejectAccess s).ieLen = s.ieLen := rfl
@[simp] theorem rejectAccess_ieInst (s : State) : (rejectAccess s).ieInst = s.ieInst := rfl
@[simp] theorem rejectAccess_ieVoff (s : State) : (rejectAccess s).ieVoff = s.ieVoff := rfl
@[simp] theorem rejectAccess_ieCount (s : State) : (rejectAccess s).ieCount = s.ieCount := rfl
@[simp] theorem rejectAccess_err (s : State) : (rejectAccess s).err = s.err := rfl
@[simp] theorem rejectAccess_clamp (s : State) : (rejectAccess s).clamp = s.clamp := rfl
@[simp] theorem rejectAccess_proto (s : State) : (rejectAccess s).proto = true := rfl
@[simp] theorem rejectAccess_schedule (s : State) : (rejectAccess s).schedule = s.schedule := rfl
@[simp] theorem rejectAccess_regData (s : State) : (rejectAccess s).regData = s.regData := rfl
@[simp] theorem rejectAccess_bufData (s : State) : (rejectAccess s).bufData = s.bufData := rfl
@[simp] theorem rejectAccess_epoch (s : State) : (rejectAccess s).epoch = s.epoch := rfl

@[simp] theorem raiseMalformed_buf (c : ErrCode) (s : State) : (raiseMalformed c s).buf = s.buf := rfl
@[simp] theorem raiseMalformed_dlen (c : ErrCode) (s : State) : (raiseMalformed c s).dlen = s.dlen := rfl
@[simp] theorem raiseMalformed_phase (c : ErrCode) (s : State) : (raiseMalformed c s).phase = .error := rfl
@[simp] theorem raiseMalformed_off (c : ErrCode) (s : State) : (raiseMalformed c s).off = s.off := rfl
@[simp] theorem raiseMalformed_endOff (c : ErrCode) (s : State) : (raiseMalformed c s).endOff = s.endOff := rfl
@[simp] theorem raiseMalformed_hValid (c : ErrCode) (s : State) : (raiseMalformed c s).hValid = s.hValid := rfl
@[simp] theorem raiseMalformed_hVer (c : ErrCode) (s : State) : (raiseMalformed c s).hVer = s.hVer := rfl
@[simp] theorem raiseMalformed_hS (c : ErrCode) (s : State) : (raiseMalformed c s).hS = s.hS := rfl
@[simp] theorem raiseMalformed_hType (c : ErrCode) (s : State) : (raiseMalformed c s).hType = s.hType := rfl
@[simp] theorem raiseMalformed_hLen (c : ErrCode) (s : State) : (raiseMalformed c s).hLen = s.hLen := rfl
@[simp] theorem raiseMalformed_hSeid (c : ErrCode) (s : State) : (raiseMalformed c s).hSeid = s.hSeid := rfl
@[simp] theorem raiseMalformed_hSeq (c : ErrCode) (s : State) : (raiseMalformed c s).hSeq = s.hSeq := rfl
@[simp] theorem raiseMalformed_hHlen (c : ErrCode) (s : State) : (raiseMalformed c s).hHlen = s.hHlen := rfl
@[simp] theorem raiseMalformed_pLen (c : ErrCode) (s : State) : (raiseMalformed c s).pLen = s.pLen := rfl
@[simp] theorem raiseMalformed_ieValid (c : ErrCode) (s : State) : (raiseMalformed c s).ieValid = s.ieValid := rfl
@[simp] theorem raiseMalformed_ieType (c : ErrCode) (s : State) : (raiseMalformed c s).ieType = s.ieType := rfl
@[simp] theorem raiseMalformed_ieLen (c : ErrCode) (s : State) : (raiseMalformed c s).ieLen = s.ieLen := rfl
@[simp] theorem raiseMalformed_ieInst (c : ErrCode) (s : State) : (raiseMalformed c s).ieInst = s.ieInst := rfl
@[simp] theorem raiseMalformed_ieVoff (c : ErrCode) (s : State) : (raiseMalformed c s).ieVoff = s.ieVoff := rfl
@[simp] theorem raiseMalformed_ieCount (c : ErrCode) (s : State) : (raiseMalformed c s).ieCount = s.ieCount := rfl
@[simp] theorem raiseMalformed_err (c : ErrCode) (s : State) : (raiseMalformed c s).err = c := rfl
@[simp] theorem raiseMalformed_clamp (c : ErrCode) (s : State) : (raiseMalformed c s).clamp = s.clamp := rfl
@[simp] theorem raiseMalformed_proto (c : ErrCode) (s : State) : (raiseMalformed c s).proto = s.proto := rfl
@[simp] theorem raiseMalformed_schedule (c : ErrCode) (s : State) : (raiseMalformed c s).schedule = s.schedule := rfl
@[simp] theorem raiseMalformed_regData (c : ErrCode) (s : State) : (raiseMalformed c s).regData = s.regData := rfl
@[simp] theorem raiseMalformed_bufData (c : ErrCode) (s : State) : (raiseMalformed c s).bufData = s.bufData := rfl
@[simp] theorem raiseMalformed_epoch (c : ErrCode) (s : State) : (raiseMalformed c s).epoch = s.epoch := rfl

@[simp] theorem clearRun_buf (s : State) : (clearRun s).buf = s.buf := rfl
@[simp] theorem clearRun_dlen (s : State) : (clearRun s).dlen = s.dlen := rfl
@[simp] theorem clearRun_phase (s : State) : (clearRun s).phase = .idle := rfl
@[simp] theorem clearRun_off (s : State) : (clearRun s).off = 0 := rfl
@[simp] theorem clearRun_endOff (s : State) : (clearRun s).endOff = 0 := rfl
@[simp] theorem clearRun_hValid (s : State) : (clearRun s).hValid = false := rfl
@[simp] theorem clearRun_hVer (s : State) : (clearRun s).hVer = 0 := rfl
@[simp] theorem clearRun_hS (s : State) : (clearRun s).hS = false := rfl
@[simp] theorem clearRun_hType (s : State) : (clearRun s).hType = 0 := rfl
@[simp] theorem clearRun_hLen (s : State) : (clearRun s).hLen = 0 := rfl
@[simp] theorem clearRun_hSeid (s : State) : (clearRun s).hSeid = 0 := rfl
@[simp] theorem clearRun_hSeq (s : State) : (clearRun s).hSeq = 0 := rfl
@[simp] theorem clearRun_hHlen (s : State) : (clearRun s).hHlen = 0 := rfl
@[simp] theorem clearRun_pLen (s : State) : (clearRun s).pLen = 0 := rfl
@[simp] theorem clearRun_ieValid (s : State) : (clearRun s).ieValid = false := rfl
@[simp] theorem clearRun_ieType (s : State) : (clearRun s).ieType = 0 := rfl
@[simp] theorem clearRun_ieLen (s : State) : (clearRun s).ieLen = 0 := rfl
@[simp] theorem clearRun_ieInst (s : State) : (clearRun s).ieInst = 0 := rfl
@[simp] theorem clearRun_ieVoff (s : State) : (clearRun s).ieVoff = 0 := rfl
@[simp] theorem clearRun_ieCount (s : State) : (clearRun s).ieCount = 0 := rfl
@[simp] theorem clearRun_err (s : State) : (clearRun s).err = ErrCode.none := rfl
@[simp] theorem clearRun_clamp (s : State) : (clearRun s).clamp = false := rfl
@[simp] theorem clearRun_proto (s : State) : (clearRun s).proto = s.proto := rfl
@[simp] theorem clearRun_schedule (s : State) : (clearRun s).schedule = s.schedule := rfl
@[simp] theorem clearRun_regData (s : State) : (clearRun s).regData = s.regData := rfl
@[simp] theorem clearRun_bufData (s : State) : (clearRun s).bufData = s.bufData := rfl
@[simp] theorem clearRun_epoch (s : State) : (clearRun s).epoch = s.epoch := rfl

@[simp] theorem writeFields_buf (f : HeaderFields) (s : State) : (writeFields f s).buf = s.buf := rfl
@[simp] theorem writeFields_dlen (f : HeaderFields) (s : State) : (writeFields f s).dlen = s.dlen := rfl
@[simp] theorem writeFields_phase (f : HeaderFields) (s : State) : (writeFields f s).phase = s.phase := rfl
@[simp] theorem writeFields_off (f : HeaderFields) (s : State) : (writeFields f s).off = s.off := rfl
@[simp] theorem writeFields_endOff (f : HeaderFields) (s : State) : (writeFields f s).endOff = s.endOff := rfl
@[simp] theorem writeFields_hValid (f : HeaderFields) (s : State) : (writeFields f s).hValid = true := rfl
@[simp] theorem writeFields_hVer (f : HeaderFields) (s : State) : (writeFields f s).hVer = f.ver := rfl
@[simp] theorem writeFields_hS (f : HeaderFields) (s : State) : (writeFields f s).hS = f.s := rfl
@[simp] theorem writeFields_hType (f : HeaderFields) (s : State) : (writeFields f s).hType = f.mtype := rfl
@[simp] theorem writeFields_hLen (f : HeaderFields) (s : State) : (writeFields f s).hLen = f.length := rfl
@[simp] theorem writeFields_hSeid (f : HeaderFields) (s : State) : (writeFields f s).hSeid = f.seid.getD 0 := rfl
@[simp] theorem writeFields_hSeq (f : HeaderFields) (s : State) : (writeFields f s).hSeq = f.seq := rfl
@[simp] theorem writeFields_hHlen (f : HeaderFields) (s : State) : (writeFields f s).hHlen = BitVec.ofNat 5 f.hlen := rfl
@[simp] theorem writeFields_pLen (f : HeaderFields) (s : State) : (writeFields f s).pLen = s.pLen := rfl
@[simp] theorem writeFields_ieValid (f : HeaderFields) (s : State) : (writeFields f s).ieValid = s.ieValid := rfl
@[simp] theorem writeFields_ieType (f : HeaderFields) (s : State) : (writeFields f s).ieType = s.ieType := rfl
@[simp] theorem writeFields_ieLen (f : HeaderFields) (s : State) : (writeFields f s).ieLen = s.ieLen := rfl
@[simp] theorem writeFields_ieInst (f : HeaderFields) (s : State) : (writeFields f s).ieInst = s.ieInst := rfl
@[simp] theorem writeFields_ieVoff (f : HeaderFields) (s : State) : (writeFields f s).ieVoff = s.ieVoff := rfl
@[simp] theorem writeFields_ieCount (f : HeaderFields) (s : State) : (writeFields f s).ieCount = s.ieCount := rfl
@[simp] theorem writeFields_err (f : HeaderFields) (s : State) : (writeFields f s).err = s.err := rfl
@[simp] theorem writeFields_clamp (f : HeaderFields) (s : State) : (writeFields f s).clamp = s.clamp := rfl
@[simp] theorem writeFields_proto (f : HeaderFields) (s : State) : (writeFields f s).proto = s.proto := rfl
@[simp] theorem writeFields_schedule (f : HeaderFields) (s : State) : (writeFields f s).schedule = s.schedule := rfl
@[simp] theorem writeFields_regData (f : HeaderFields) (s : State) : (writeFields f s).regData = s.regData := rfl
@[simp] theorem writeFields_bufData (f : HeaderFields) (s : State) : (writeFields f s).bufData = s.bufData := rfl
@[simp] theorem writeFields_epoch (f : HeaderFields) (s : State) : (writeFields f s).epoch = s.epoch := rfl

@[simp] theorem voidFields_buf (s : State) : (voidFields s).buf = s.buf := rfl
@[simp] theorem voidFields_dlen (s : State) : (voidFields s).dlen = s.dlen := rfl
@[simp] theorem voidFields_phase (s : State) : (voidFields s).phase = s.phase := rfl
@[simp] theorem voidFields_off (s : State) : (voidFields s).off = s.off := rfl
@[simp] theorem voidFields_endOff (s : State) : (voidFields s).endOff = s.endOff := rfl
@[simp] theorem voidFields_hValid (s : State) : (voidFields s).hValid = false := rfl
@[simp] theorem voidFields_hVer (s : State) : (voidFields s).hVer = 0 := rfl
@[simp] theorem voidFields_hS (s : State) : (voidFields s).hS = false := rfl
@[simp] theorem voidFields_hType (s : State) : (voidFields s).hType = 0 := rfl
@[simp] theorem voidFields_hLen (s : State) : (voidFields s).hLen = 0 := rfl
@[simp] theorem voidFields_hSeid (s : State) : (voidFields s).hSeid = 0 := rfl
@[simp] theorem voidFields_hSeq (s : State) : (voidFields s).hSeq = 0 := rfl
@[simp] theorem voidFields_hHlen (s : State) : (voidFields s).hHlen = 0 := rfl
@[simp] theorem voidFields_pLen (s : State) : (voidFields s).pLen = s.pLen := rfl
@[simp] theorem voidFields_ieValid (s : State) : (voidFields s).ieValid = s.ieValid := rfl
@[simp] theorem voidFields_ieType (s : State) : (voidFields s).ieType = s.ieType := rfl
@[simp] theorem voidFields_ieLen (s : State) : (voidFields s).ieLen = s.ieLen := rfl
@[simp] theorem voidFields_ieInst (s : State) : (voidFields s).ieInst = s.ieInst := rfl
@[simp] theorem voidFields_ieVoff (s : State) : (voidFields s).ieVoff = s.ieVoff := rfl
@[simp] theorem voidFields_ieCount (s : State) : (voidFields s).ieCount = s.ieCount := rfl
@[simp] theorem voidFields_err (s : State) : (voidFields s).err = s.err := rfl
@[simp] theorem voidFields_clamp (s : State) : (voidFields s).clamp = s.clamp := rfl
@[simp] theorem voidFields_proto (s : State) : (voidFields s).proto = s.proto := rfl
@[simp] theorem voidFields_schedule (s : State) : (voidFields s).schedule = s.schedule := rfl
@[simp] theorem voidFields_regData (s : State) : (voidFields s).regData = s.regData := rfl
@[simp] theorem voidFields_bufData (s : State) : (voidFields s).bufData = s.bufData := rfl
@[simp] theorem voidFields_epoch (s : State) : (voidFields s).epoch = s.epoch := rfl

@[simp] theorem voidPayload_buf (s : State) : (voidPayload s).buf = s.buf := rfl
@[simp] theorem voidPayload_dlen (s : State) : (voidPayload s).dlen = s.dlen := rfl
@[simp] theorem voidPayload_phase (s : State) : (voidPayload s).phase = s.phase := rfl
@[simp] theorem voidPayload_off (s : State) : (voidPayload s).off = 0 := rfl
@[simp] theorem voidPayload_endOff (s : State) : (voidPayload s).endOff = 0 := rfl
@[simp] theorem voidPayload_hValid (s : State) : (voidPayload s).hValid = s.hValid := rfl
@[simp] theorem voidPayload_hVer (s : State) : (voidPayload s).hVer = s.hVer := rfl
@[simp] theorem voidPayload_hS (s : State) : (voidPayload s).hS = s.hS := rfl
@[simp] theorem voidPayload_hType (s : State) : (voidPayload s).hType = s.hType := rfl
@[simp] theorem voidPayload_hLen (s : State) : (voidPayload s).hLen = s.hLen := rfl
@[simp] theorem voidPayload_hSeid (s : State) : (voidPayload s).hSeid = s.hSeid := rfl
@[simp] theorem voidPayload_hSeq (s : State) : (voidPayload s).hSeq = s.hSeq := rfl
@[simp] theorem voidPayload_hHlen (s : State) : (voidPayload s).hHlen = s.hHlen := rfl
@[simp] theorem voidPayload_pLen (s : State) : (voidPayload s).pLen = 0 := rfl
@[simp] theorem voidPayload_ieValid (s : State) : (voidPayload s).ieValid = s.ieValid := rfl
@[simp] theorem voidPayload_ieType (s : State) : (voidPayload s).ieType = s.ieType := rfl
@[simp] theorem voidPayload_ieLen (s : State) : (voidPayload s).ieLen = s.ieLen := rfl
@[simp] theorem voidPayload_ieInst (s : State) : (voidPayload s).ieInst = s.ieInst := rfl
@[simp] theorem voidPayload_ieVoff (s : State) : (voidPayload s).ieVoff = s.ieVoff := rfl
@[simp] theorem voidPayload_ieCount (s : State) : (voidPayload s).ieCount = s.ieCount := rfl
@[simp] theorem voidPayload_err (s : State) : (voidPayload s).err = s.err := rfl
@[simp] theorem voidPayload_clamp (s : State) : (voidPayload s).clamp = false := rfl
@[simp] theorem voidPayload_proto (s : State) : (voidPayload s).proto = s.proto := rfl
@[simp] theorem voidPayload_schedule (s : State) : (voidPayload s).schedule = s.schedule := rfl
@[simp] theorem voidPayload_regData (s : State) : (voidPayload s).regData = s.regData := rfl
@[simp] theorem voidPayload_bufData (s : State) : (voidPayload s).bufData = s.bufData := rfl
@[simp] theorem voidPayload_epoch (s : State) : (voidPayload s).epoch = s.epoch := rfl

@[simp] theorem openPayload_buf (o e : Nat) (c : Bool) (s : State) : (openPayload o e c s).buf = s.buf := rfl
@[simp] theorem openPayload_dlen (o e : Nat) (c : Bool) (s : State) : (openPayload o e c s).dlen = s.dlen := rfl
@[simp] theorem openPayload_phase (o e : Nat) (c : Bool) (s : State) : (openPayload o e c s).phase = .ies := rfl
@[simp] theorem openPayload_off (o e : Nat) (c : Bool) (s : State) : (openPayload o e c s).off = BitVec.ofNat 16 o := rfl
@[simp] theorem openPayload_endOff (o e : Nat) (c : Bool) (s : State) : (openPayload o e c s).endOff = BitVec.ofNat 16 e := rfl
@[simp] theorem openPayload_hValid (o e : Nat) (c : Bool) (s : State) : (openPayload o e c s).hValid = s.hValid := rfl
@[simp] theorem openPayload_hVer (o e : Nat) (c : Bool) (s : State) : (openPayload o e c s).hVer = s.hVer := rfl
@[simp] theorem openPayload_hS (o e : Nat) (c : Bool) (s : State) : (openPayload o e c s).hS = s.hS := rfl
@[simp] theorem openPayload_hType (o e : Nat) (c : Bool) (s : State) : (openPayload o e c s).hType = s.hType := rfl
@[simp] theorem openPayload_hLen (o e : Nat) (c : Bool) (s : State) : (openPayload o e c s).hLen = s.hLen := rfl
@[simp] theorem openPayload_hSeid (o e : Nat) (c : Bool) (s : State) : (openPayload o e c s).hSeid = s.hSeid := rfl
@[simp] theorem openPayload_hSeq (o e : Nat) (c : Bool) (s : State) : (openPayload o e c s).hSeq = s.hSeq := rfl
@[simp] theorem openPayload_hHlen (o e : Nat) (c : Bool) (s : State) : (openPayload o e c s).hHlen = s.hHlen := rfl
@[simp] theorem openPayload_pLen (o e : Nat) (c : Bool) (s : State) : (openPayload o e c s).pLen = BitVec.ofNat 16 (payloadLen e o) := rfl
@[simp] theorem openPayload_ieValid (o e : Nat) (c : Bool) (s : State) : (openPayload o e c s).ieValid = s.ieValid := rfl
@[simp] theorem openPayload_ieType (o e : Nat) (c : Bool) (s : State) : (openPayload o e c s).ieType = s.ieType := rfl
@[simp] theorem openPayload_ieLen (o e : Nat) (c : Bool) (s : State) : (openPayload o e c s).ieLen = s.ieLen := rfl
@[simp] theorem openPayload_ieInst (o e : Nat) (c : Bool) (s : State) : (openPayload o e c s).ieInst = s.ieInst := rfl
@[simp] theorem openPayload_ieVoff (o e : Nat) (c : Bool) (s : State) : (openPayload o e c s).ieVoff = s.ieVoff := rfl
@[simp] theorem openPayload_ieCount (o e : Nat) (c : Bool) (s : State) : (openPayload o e c s).ieCount = 0 := rfl
@[simp] theorem openPayload_err (o e : Nat) (c : Bool) (s : State) : (openPayload o e c s).err = .none := rfl
@[simp] theorem openPayload_clamp (o e : Nat) (c : Bool) (s : State) : (openPayload o e c s).clamp = c := rfl
@[simp] theorem openPayload_proto (o e : Nat) (c : Bool) (s : State) : (openPayload o e c s).proto = s.proto := rfl
@[simp] theorem openPayload_schedule (o e : Nat) (c : Bool) (s : State) : (openPayload o e c s).schedule = s.schedule := rfl
@[simp] theorem openPayload_regData (o e : Nat) (c : Bool) (s : State) : (openPayload o e c s).regData = s.regData := rfl
@[simp] theorem openPayload_bufData (o e : Nat) (c : Bool) (s : State) : (openPayload o e c s).bufData = s.bufData := rfl
@[simp] theorem openPayload_epoch (o e : Nat) (c : Bool) (s : State) : (openPayload o e c s).epoch = s.epoch := rfl

@[simp] theorem stopExtraction_buf (s : State) : (stopExtraction s).buf = s.buf := rfl
@[simp] theorem stopExtraction_dlen (s : State) : (stopExtraction s).dlen = s.dlen := rfl
@[simp] theorem stopExtraction_phase (s : State) : (stopExtraction s).phase = .done := rfl
@[simp] theorem stopExtraction_off (s : State) : (stopExtraction s).off = s.off := rfl
@[simp] theorem stopExtraction_endOff (s : State) : (stopExtraction s).endOff = s.endOff := rfl
@[simp] theorem stopExtraction_hValid (s : State) : (stopExtraction s).hValid = s.hValid := rfl
@[simp] theorem stopExtraction_hVer (s : State) : (stopExtraction s).hVer = s.hVer := rfl
@[simp] theorem stopExtraction_hS (s : State) : (stopExtraction s).hS = s.hS := rfl
@[simp] theorem stopExtraction_hType (s : State) : (stopExtraction s).hType = s.hType := rfl
@[simp] theorem stopExtraction_hLen (s : State) : (stopExtraction s).hLen = s.hLen := rfl
@[simp] theorem stopExtraction_hSeid (s : State) : (stopExtraction s).hSeid = s.hSeid := rfl
@[simp] theorem stopExtraction_hSeq (s : State) : (stopExtraction s).hSeq = s.hSeq := rfl
@[simp] theorem stopExtraction_hHlen (s : State) : (stopExtraction s).hHlen = s.hHlen := rfl
@[simp] theorem stopExtraction_pLen (s : State) : (stopExtraction s).pLen = s.pLen := rfl
@[simp] theorem stopExtraction_ieValid (s : State) : (stopExtraction s).ieValid = s.ieValid := rfl
@[simp] theorem stopExtraction_ieType (s : State) : (stopExtraction s).ieType = s.ieType := rfl
@[simp] theorem stopExtraction_ieLen (s : State) : (stopExtraction s).ieLen = s.ieLen := rfl
@[simp] theorem stopExtraction_ieInst (s : State) : (stopExtraction s).ieInst = s.ieInst := rfl
@[simp] theorem stopExtraction_ieVoff (s : State) : (stopExtraction s).ieVoff = s.ieVoff := rfl
@[simp] theorem stopExtraction_ieCount (s : State) : (stopExtraction s).ieCount = s.ieCount := rfl
@[simp] theorem stopExtraction_err (s : State) : (stopExtraction s).err = s.err := rfl
@[simp] theorem stopExtraction_clamp (s : State) : (stopExtraction s).clamp = s.clamp := rfl
@[simp] theorem stopExtraction_proto (s : State) : (stopExtraction s).proto = s.proto := rfl
@[simp] theorem stopExtraction_schedule (s : State) : (stopExtraction s).schedule = s.schedule := rfl
@[simp] theorem stopExtraction_regData (s : State) : (stopExtraction s).regData = s.regData := rfl
@[simp] theorem stopExtraction_bufData (s : State) : (stopExtraction s).bufData = s.bufData := rfl
@[simp] theorem stopExtraction_epoch (s : State) : (stopExtraction s).epoch = s.epoch := rfl

@[simp] theorem emitRecord_buf (t l : BitVec 16) (i : BitVec 4) (s : State) : (emitRecord t l i s).buf = s.buf := rfl
@[simp] theorem emitRecord_dlen (t l : BitVec 16) (i : BitVec 4) (s : State) : (emitRecord t l i s).dlen = s.dlen := rfl
@[simp] theorem emitRecord_phase (t l : BitVec 16) (i : BitVec 4) (s : State) : (emitRecord t l i s).phase = s.phase := rfl
@[simp] theorem emitRecord_off (t l : BitVec 16) (i : BitVec 4) (s : State) : (emitRecord t l i s).off = BitVec.ofNat 16 (nextOff s.off.toNat l.toNat) := rfl
@[simp] theorem emitRecord_endOff (t l : BitVec 16) (i : BitVec 4) (s : State) : (emitRecord t l i s).endOff = s.endOff := rfl
@[simp] theorem emitRecord_hValid (t l : BitVec 16) (i : BitVec 4) (s : State) : (emitRecord t l i s).hValid = s.hValid := rfl
@[simp] theorem emitRecord_hVer (t l : BitVec 16) (i : BitVec 4) (s : State) : (emitRecord t l i s).hVer = s.hVer := rfl
@[simp] theorem emitRecord_hS (t l : BitVec 16) (i : BitVec 4) (s : State) : (emitRecord t l i s).hS = s.hS := rfl
@[simp] theorem emitRecord_hType (t l : BitVec 16) (i : BitVec 4) (s : State) : (emitRecord t l i s).hType = s.hType := rfl
@[simp] theorem emitRecord_hLen (t l : BitVec 16) (i : BitVec 4) (s : State) : (emitRecord t l i s).hLen = s.hLen := rfl
@[simp] theorem emitRecord_hSeid (t l : BitVec 16) (i : BitVec 4) (s : State) : (emitRecord t l i s).hSeid = s.hSeid := rfl
@[simp] theorem emitRecord_hSeq (t l : BitVec 16) (i : BitVec 4) (s : State) : (emitRecord t l i s).hSeq = s.hSeq := rfl
@[simp] theorem emitRecord_hHlen (t l : BitVec 16) (i : BitVec 4) (s : State) : (emitRecord t l i s).hHlen = s.hHlen := rfl
@[simp] theorem emitRecord_pLen (t l : BitVec 16) (i : BitVec 4) (s : State) : (emitRecord t l i s).pLen = s.pLen := rfl
@[simp] theorem emitRecord_ieValid (t l : BitVec 16) (i : BitVec 4) (s : State) : (emitRecord t l i s).ieValid = true := rfl
@[simp] theorem emitRecord_ieType (t l : BitVec 16) (i : BitVec 4) (s : State) : (emitRecord t l i s).ieType = t := rfl
@[simp] theorem emitRecord_ieLen (t l : BitVec 16) (i : BitVec 4) (s : State) : (emitRecord t l i s).ieLen = l := rfl
@[simp] theorem emitRecord_ieInst (t l : BitVec 16) (i : BitVec 4) (s : State) : (emitRecord t l i s).ieInst = i := rfl
@[simp] theorem emitRecord_ieVoff (t l : BitVec 16) (i : BitVec 4) (s : State) : (emitRecord t l i s).ieVoff = BitVec.ofNat 16 (valueOff s.off.toNat) := rfl
@[simp] theorem emitRecord_ieCount (t l : BitVec 16) (i : BitVec 4) (s : State) : (emitRecord t l i s).ieCount = s.ieCount + 1 := rfl
@[simp] theorem emitRecord_err (t l : BitVec 16) (i : BitVec 4) (s : State) : (emitRecord t l i s).err = s.err := rfl
@[simp] theorem emitRecord_clamp (t l : BitVec 16) (i : BitVec 4) (s : State) : (emitRecord t l i s).clamp = s.clamp := rfl
@[simp] theorem emitRecord_proto (t l : BitVec 16) (i : BitVec 4) (s : State) : (emitRecord t l i s).proto = s.proto := rfl
@[simp] theorem emitRecord_schedule (t l : BitVec 16) (i : BitVec 4) (s : State) : (emitRecord t l i s).schedule = s.schedule := rfl
@[simp] theorem emitRecord_regData (t l : BitVec 16) (i : BitVec 4) (s : State) : (emitRecord t l i s).regData = s.regData := rfl
@[simp] theorem emitRecord_bufData (t l : BitVec 16) (i : BitVec 4) (s : State) : (emitRecord t l i s).bufData = s.bufData := rfl
@[simp] theorem emitRecord_epoch (t l : BitVec 16) (i : BitVec 4) (s : State) : (emitRecord t l i s).epoch = s.epoch := rfl

@[simp] theorem takeRecord_buf (s : State) : (takeRecord s).buf = s.buf := rfl
@[simp] theorem takeRecord_dlen (s : State) : (takeRecord s).dlen = s.dlen := rfl
@[simp] theorem takeRecord_phase (s : State) : (takeRecord s).phase = s.phase := rfl
@[simp] theorem takeRecord_off (s : State) : (takeRecord s).off = s.off := rfl
@[simp] theorem takeRecord_endOff (s : State) : (takeRecord s).endOff = s.endOff := rfl
@[simp] theorem takeRecord_hValid (s : State) : (takeRecord s).hValid = s.hValid := rfl
@[simp] theorem takeRecord_hVer (s : State) : (takeRecord s).hVer = s.hVer := rfl
@[simp] theorem takeRecord_hS (s : State) : (takeRecord s).hS = s.hS := rfl
@[simp] theorem takeRecord_hType (s : State) : (takeRecord s).hType = s.hType := rfl
@[simp] theorem takeRecord_hLen (s : State) : (takeRecord s).hLen = s.hLen := rfl
@[simp] theorem takeRecord_hSeid (s : State) : (takeRecord s).hSeid = s.hSeid := rfl
@[simp] theorem takeRecord_hSeq (s : State) : (takeRecord s).hSeq = s.hSeq := rfl
@[simp] theorem takeRecord_hHlen (s : State) : (takeRecord s).hHlen = s.hHlen := rfl
@[simp] theorem takeRecord_pLen (s : State) : (takeRecord s).pLen = s.pLen := rfl
@[simp] theorem takeRecord_ieValid (s : State) : (takeRecord s).ieValid = false := rfl
@[simp] theorem takeRecord_ieType (s : State) : (takeRecord s).ieType = 0 := rfl
@[simp] theorem takeRecord_ieLen (s : State) : (takeRecord s).ieLen = 0 := rfl
@[simp] theorem takeRecord_ieInst (s : State) : (takeRecord s).ieInst = 0 := rfl
@[simp] theorem takeRecord_ieVoff (s : State) : (takeRecord s).ieVoff = 0 := rfl
@[simp] theorem takeRecord_ieCount (s : State) : (takeRecord s).ieCount = s.ieCount := rfl
@[simp] theorem takeRecord_err (s : State) : (takeRecord s).err = s.err := rfl
@[simp] theorem takeRecord_clamp (s : State) : (takeRecord s).clamp = s.clamp := rfl
@[simp] theorem takeRecord_proto (s : State) : (takeRecord s).proto = s.proto := rfl
@[simp] theorem takeRecord_schedule (s : State) : (takeRecord s).schedule = s.schedule := rfl
@[simp] theorem takeRecord_regData (s : State) : (takeRecord s).regData = s.regData := rfl
@[simp] theorem takeRecord_bufData (s : State) : (takeRecord s).bufData = s.bufData := rfl
@[simp] theorem takeRecord_epoch (s : State) : (takeRecord s).epoch = s.epoch := rfl

@[simp] theorem answerRegister_buf (v : PortData) (s : State) : (answerRegister v s).buf = s.buf := rfl
@[simp] theorem answerRegister_dlen (v : PortData) (s : State) : (answerRegister v s).dlen = s.dlen := rfl
@[simp] theorem answerRegister_phase (v : PortData) (s : State) : (answerRegister v s).phase = s.phase := rfl
@[simp] theorem answerRegister_off (v : PortData) (s : State) : (answerRegister v s).off = s.off := rfl
@[simp] theorem answerRegister_endOff (v : PortData) (s : State) : (answerRegister v s).endOff = s.endOff := rfl
@[simp] theorem answerRegister_hValid (v : PortData) (s : State) : (answerRegister v s).hValid = s.hValid := rfl
@[simp] theorem answerRegister_hVer (v : PortData) (s : State) : (answerRegister v s).hVer = s.hVer := rfl
@[simp] theorem answerRegister_hS (v : PortData) (s : State) : (answerRegister v s).hS = s.hS := rfl
@[simp] theorem answerRegister_hType (v : PortData) (s : State) : (answerRegister v s).hType = s.hType := rfl
@[simp] theorem answerRegister_hLen (v : PortData) (s : State) : (answerRegister v s).hLen = s.hLen := rfl
@[simp] theorem answerRegister_hSeid (v : PortData) (s : State) : (answerRegister v s).hSeid = s.hSeid := rfl
@[simp] theorem answerRegister_hSeq (v : PortData) (s : State) : (answerRegister v s).hSeq = s.hSeq := rfl
@[simp] theorem answerRegister_hHlen (v : PortData) (s : State) : (answerRegister v s).hHlen = s.hHlen := rfl
@[simp] theorem answerRegister_pLen (v : PortData) (s : State) : (answerRegister v s).pLen = s.pLen := rfl
@[simp] theorem answerRegister_ieValid (v : PortData) (s : State) : (answerRegister v s).ieValid = s.ieValid := rfl
@[simp] theorem answerRegister_ieType (v : PortData) (s : State) : (answerRegister v s).ieType = s.ieType := rfl
@[simp] theorem answerRegister_ieLen (v : PortData) (s : State) : (answerRegister v s).ieLen = s.ieLen := rfl
@[simp] theorem answerRegister_ieInst (v : PortData) (s : State) : (answerRegister v s).ieInst = s.ieInst := rfl
@[simp] theorem answerRegister_ieVoff (v : PortData) (s : State) : (answerRegister v s).ieVoff = s.ieVoff := rfl
@[simp] theorem answerRegister_ieCount (v : PortData) (s : State) : (answerRegister v s).ieCount = s.ieCount := rfl
@[simp] theorem answerRegister_err (v : PortData) (s : State) : (answerRegister v s).err = s.err := rfl
@[simp] theorem answerRegister_clamp (v : PortData) (s : State) : (answerRegister v s).clamp = s.clamp := rfl
@[simp] theorem answerRegister_proto (v : PortData) (s : State) : (answerRegister v s).proto = s.proto := rfl
@[simp] theorem answerRegister_schedule (v : PortData) (s : State) : (answerRegister v s).schedule = s.schedule := rfl
@[simp] theorem answerRegister_regData (v : PortData) (s : State) : (answerRegister v s).regData = some v := rfl
@[simp] theorem answerRegister_bufData (v : PortData) (s : State) : (answerRegister v s).bufData = s.bufData := rfl
@[simp] theorem answerRegister_epoch (v : PortData) (s : State) : (answerRegister v s).epoch = s.epoch := rfl

@[simp] theorem answerBuffer_buf (b : Byte) (s : State) : (answerBuffer b s).buf = s.buf := rfl
@[simp] theorem answerBuffer_dlen (b : Byte) (s : State) : (answerBuffer b s).dlen = s.dlen := rfl
@[simp] theorem answerBuffer_phase (b : Byte) (s : State) : (answerBuffer b s).phase = s.phase := rfl
@[simp] theorem answerBuffer_off (b : Byte) (s : State) : (answerBuffer b s).off = s.off := rfl
@[simp] theorem answerBuffer_endOff (b : Byte) (s : State) : (answerBuffer b s).endOff = s.endOff := rfl
@[simp] theorem answerBuffer_hValid (b : Byte) (s : State) : (answerBuffer b s).hValid = s.hValid := rfl
@[simp] theorem answerBuffer_hVer (b : Byte) (s : State) : (answerBuffer b s).hVer = s.hVer := rfl
@[simp] theorem answerBuffer_hS (b : Byte) (s : State) : (answerBuffer b s).hS = s.hS := rfl
@[simp] theorem answerBuffer_hType (b : Byte) (s : State) : (answerBuffer b s).hType = s.hType := rfl
@[simp] theorem answerBuffer_hLen (b : Byte) (s : State) : (answerBuffer b s).hLen = s.hLen := rfl
@[simp] theorem answerBuffer_hSeid (b : Byte) (s : State) : (answerBuffer b s).hSeid = s.hSeid := rfl
@[simp] theorem answerBuffer_hSeq (b : Byte) (s : State) : (answerBuffer b s).hSeq = s.hSeq := rfl
@[simp] theorem answerBuffer_hHlen (b : Byte) (s : State) : (answerBuffer b s).hHlen = s.hHlen := rfl
@[simp] theorem answerBuffer_pLen (b : Byte) (s : State) : (answerBuffer b s).pLen = s.pLen := rfl
@[simp] theorem answerBuffer_ieValid (b : Byte) (s : State) : (answerBuffer b s).ieValid = s.ieValid := rfl
@[simp] theorem answerBuffer_ieType (b : Byte) (s : State) : (answerBuffer b s).ieType = s.ieType := rfl
@[simp] theorem answerBuffer_ieLen (b : Byte) (s : State) : (answerBuffer b s).ieLen = s.ieLen := rfl
@[simp] theorem answerBuffer_ieInst (b : Byte) (s : State) : (answerBuffer b s).ieInst = s.ieInst := rfl
@[simp] theorem answerBuffer_ieVoff (b : Byte) (s : State) : (answerBuffer b s).ieVoff = s.ieVoff := rfl
@[simp] theorem answerBuffer_ieCount (b : Byte) (s : State) : (answerBuffer b s).ieCount = s.ieCount := rfl
@[simp] theorem answerBuffer_err (b : Byte) (s : State) : (answerBuffer b s).err = s.err := rfl
@[simp] theorem answerBuffer_clamp (b : Byte) (s : State) : (answerBuffer b s).clamp = s.clamp := rfl
@[simp] theorem answerBuffer_proto (b : Byte) (s : State) : (answerBuffer b s).proto = s.proto := rfl
@[simp] theorem answerBuffer_schedule (b : Byte) (s : State) : (answerBuffer b s).schedule = s.schedule := rfl
@[simp] theorem answerBuffer_regData (b : Byte) (s : State) : (answerBuffer b s).regData = s.regData := rfl
@[simp] theorem answerBuffer_bufData (b : Byte) (s : State) : (answerBuffer b s).bufData = some b := rfl
@[simp] theorem answerBuffer_epoch (b : Byte) (s : State) : (answerBuffer b s).epoch = s.epoch := rfl

@[simp] theorem resetEvent_buf (s : State) : (resetEvent s).buf = [] := rfl
@[simp] theorem resetEvent_dlen (s : State) : (resetEvent s).dlen = 0 := rfl
@[simp] theorem resetEvent_phase (s : State) : (resetEvent s).phase = .idle := rfl
@[simp] theorem resetEvent_off (s : State) : (resetEvent s).off = 0 := rfl
@[simp] theorem resetEvent_endOff (s : State) : (resetEvent s).endOff = 0 := rfl
@[simp] theorem resetEvent_hValid (s : State) : (resetEvent s).hValid = false := rfl
@[simp] theorem resetEvent_hVer (s : State) : (resetEvent s).hVer = 0 := rfl
@[simp] theorem resetEvent_hS (s : State) : (resetEvent s).hS = false := rfl
@[simp] theorem resetEvent_hType (s : State) : (resetEvent s).hType = 0 := rfl
@[simp] theorem resetEvent_hLen (s : State) : (resetEvent s).hLen = 0 := rfl
@[simp] theorem resetEvent_hSeid (s : State) : (resetEvent s).hSeid = 0 := rfl
@[simp] theorem resetEvent_hSeq (s : State) : (resetEvent s).hSeq = 0 := rfl
@[simp] theorem resetEvent_hHlen (s : State) : (resetEvent s).hHlen = 0 := rfl
@[simp] theorem resetEvent_pLen (s : State) : (resetEvent s).pLen = 0 := rfl
@[simp] theorem resetEvent_ieValid (s : State) : (resetEvent s).ieValid = false := rfl
@[simp] theorem resetEvent_ieType (s : State) : (resetEvent s).ieType = 0 := rfl
@[simp] theorem resetEvent_ieLen (s : State) : (resetEvent s).ieLen = 0 := rfl
@[simp] theorem resetEvent_ieInst (s : State) : (resetEvent s).ieInst = 0 := rfl
@[simp] theorem resetEvent_ieVoff (s : State) : (resetEvent s).ieVoff = 0 := rfl
@[simp] theorem resetEvent_ieCount (s : State) : (resetEvent s).ieCount = 0 := rfl
@[simp] theorem resetEvent_err (s : State) : (resetEvent s).err = ErrCode.none := rfl
@[simp] theorem resetEvent_clamp (s : State) : (resetEvent s).clamp = false := rfl
@[simp] theorem resetEvent_proto (s : State) : (resetEvent s).proto = false := rfl
@[simp] theorem resetEvent_schedule (s : State) : (resetEvent s).schedule = s.schedule := rfl
@[simp] theorem resetEvent_regData (s : State) : (resetEvent s).regData = none := rfl
@[simp] theorem resetEvent_bufData (s : State) : (resetEvent s).bufData = none := rfl
@[simp] theorem resetEvent_epoch (s : State) : (resetEvent s).epoch = s.epoch + 1 := rfl

@[simp] theorem selectNothing_eq (s : State) : selectNothing s = s := rfl

end Sys2Proof.Machine
end

