-- ==== Sys2Proof/Laws/Memory.lean ====
section
/-! SUPPORT. Read after write, the canonical form, and what a run of bytes of the buffer reads. -/

namespace Sys2Proof.Machine

theorem cell?_put_same (m : Memory) (x : Nat) (v : Byte) : (m.put x v).cell? x = some v := by
  induction m with
  | nil => simp [Memory.put, Memory.cell?]
  | cons c m ih =>
    obtain ⟨a, b⟩ := c
    simp only [Memory.put]
    split
    · simp [Memory.cell?]
    · split
      · simp [Memory.cell?]
      · have : ¬ a = x := fun h => ‹¬ x = a› h.symm
        simp [Memory.cell?, this, ih]

theorem cell?_put_other (m : Memory) {x y : Nat} (v : Byte) (h : y ≠ x) : (m.put x v).cell? y = m.cell? y := by
  have hx : ¬ x = y := fun e => h e.symm
  induction m with
  | nil => simp [Memory.put, Memory.cell?, hx]
  | cons c m ih =>
    obtain ⟨a, b⟩ := c
    simp only [Memory.put]
    split
    · simp [Memory.cell?, hx]
    · split
      · next _ ha => subst ha; simp [Memory.cell?, hx]
      · simp [Memory.cell?, ih]

theorem mem_put {m : Memory} {x : Nat} {v : Byte} {c : Host.Cell} (h : c ∈ m.put x v) : c = (x, v) ∨ c ∈ m := by
  induction m with
  | nil => simpa [Memory.put] using h
  | cons d m ih =>
    obtain ⟨a, b⟩ := d
    simp only [Memory.put] at h
    split at h
    · simpa using h
    · split at h
      · rcases List.mem_cons.mp h with h | h
        · exact .inl h
        · exact .inr (List.mem_cons_of_mem _ h)
      · rcases List.mem_cons.mp h with h | h
        · exact .inr (by simp [h])
        · exact (ih h).imp_right (List.mem_cons_of_mem _)

theorem put_wf {m : Memory} {x : Nat} (v : Byte) (hm : m.wf) (hx : x < Config.bufBytes) : (m.put x v).wf := by
  refine ⟨?_, fun c hc => ?_⟩
  · have hs := hm.1
    clear hm
    induction m with
    | nil => simp [Memory.put]
    | cons d m ih =>
      obtain ⟨a, b⟩ := d
      obtain ⟨ha, hr⟩ := List.pairwise_cons.mp hs
      simp only [Memory.put]
      split
      · refine List.pairwise_cons.mpr ⟨fun c hc => ?_, List.pairwise_cons.mpr ⟨ha, hr⟩⟩
        rcases List.mem_cons.mp hc with rfl | hc
        · assumption
        · exact Nat.lt_trans ‹x < a› (ha c hc)
      · split
        · next _ hxa => subst hxa; exact List.pairwise_cons.mpr ⟨ha, hr⟩
        · refine List.pairwise_cons.mpr ⟨fun c hc => ?_, ih hr⟩
          rcases mem_put hc with rfl | hc
          · exact Nat.lt_of_le_of_ne (Nat.le_of_not_lt ‹¬ x < a›) (fun e => ‹¬ x = a› e.symm)
          · exact ha c hc
  · rcases mem_put hc with rfl | hc
    · exact hx
    · exact hm.2 c hc

theorem bufByte_memWrite_same (a : BitVec 16) (b : Byte) (s : State) : bufByte (memWrite a b s) a.toNat = b := by
  simp [bufByte, memWrite, cell?_put_same]

theorem bufByte_memWrite_other (a : BitVec 16) (b : Byte) (s : State) {x : Nat} (h : x ≠ a.toNat) :
    bufByte (memWrite a b s) x = bufByte s x := by
  simp [bufByte, memWrite, cell?_put_other _ _ h]

theorem bufByte_congr {s t : State} (hb : s.buf = t.buf) (he : s.epoch = t.epoch) (a : Nat) :
    bufByte s a = bufByte t a := by simp [bufByte, hb, he]

theorem bufBytes_congr {s t : State} (hb : s.buf = t.buf) (he : s.epoch = t.epoch) (a n : Nat) :
    bufBytes s a n = bufBytes t a n := by
  induction n generalizing a with
  | zero => rfl
  | succ n ih => simp [bufBytes, bufByte_congr hb he, ih]

@[simp] theorem bufBytes_length (s : State) (a n : Nat) : (bufBytes s a n).length = n := by
  induction n generalizing a with
  | zero => rfl
  | succ n ih => simp [bufBytes, ih]

theorem bufBytes_getD (s : State) (a n i : Nat) (h : i < n) : (bufBytes s a n).getD i 0 = bufByte s (a + i) := by
  induction n generalizing a i with
  | zero => omega
  | succ n ih =>
    cases i with
    | zero => simp [bufBytes]
    | succ i => simp only [bufBytes, List.getD_cons_succ]; rw [ih _ _ (by omega)]; congr 1; omega

theorem bufBytes_slice (s : State) (a n i j : Nat) (h : j ≤ n) :
    slice (bufBytes s a n) i j = bufBytes s (a + i) (j - i) := by
  apply List.ext_getElem
  · simp [slice]; omega
  · intro k h1 h2
    have hk : k < j - i := by simpa using h2
    have e1 : (bufBytes s (a + i) (j - i))[k] = bufByte s (a + i + k) := by
      rw [← bufBytes_getD s (a + i) (j - i) k hk, List.getD_eq_getElem _ _ h2]
    rw [e1]
    have : i + k < n := by omega
    rw [Nat.add_assoc, ← bufBytes_getD s a n (i + k) this]
    simp [slice, this]

theorem memRead_some {s : State} {a n : Nat} {bs : List Byte} :
    memRead s a n = some bs ↔ (a + n ≤ s.dlen.toNat ∧ a + n ≤ 65536) ∧ bs = bufBytes s a n := by
  unfold memRead Config.bufBytes
  split <;> simp_all [eq_comm]

end Sys2Proof.Machine
end

