-- ==== Sys2Proof/Laws/Operands.lean ====
section
/-! SUPPORT. Each length function once, as arithmetic, and the four cases of a header. -/

namespace Sys2Proof.Machine

@[simp] theorem short8_iff {n : Nat} : short8 n = true ↔ n < 8 := by simp [short8]
@[simp] theorem short8_false_iff {n : Nat} : short8 n = false ↔ 8 ≤ n := by simp [short8]
@[simp] theorem short16_iff {n : Nat} {b : Bool} : short16 n b = true ↔ b = true ∧ n < 16 := by simp [short16]
@[simp] theorem short16_false_iff {n : Nat} {b : Bool} : short16 n b = false ↔ (b = true → 16 ≤ n) := by
  cases b <;> simp [short16]
@[simp] theorem badLen_iff {c l h : Nat} : badLen c l h = true ↔ l + c < h := by simp [badLen]
@[simp] theorem badLen_false_iff {c l h : Nat} : badLen c l h = false ↔ h ≤ l + c := by simp [badLen]
@[simp] theorem clamped_iff {c l n : Nat} : clamped c l n = true ↔ n < l + c := by simp [clamped]
@[simp] theorem ieHdrFits_iff {r : Nat} : ieHdrFits r = true ↔ 5 ≤ r := by simp [ieHdrFits]
@[simp] theorem ieHdrFits_false_iff {r : Nat} : ieHdrFits r = false ↔ r < 5 := by simp [ieHdrFits]
@[simp] theorem ieValueFits_iff {r l : Nat} : ieValueFits r l = true ↔ l ≤ r - 5 := by simp [ieValueFits]
@[simp] theorem ieValueFits_false_iff {r l : Nat} : ieValueFits r l = false ↔ r - 5 < l := by simp [ieValueFits]
@[simp] theorem hdrLen_false : hdrLen false = 8 := rfl
@[simp] theorem hdrLen_true : hdrLen true = 16 := rfl
@[simp] theorem remaining_eq (e o : Nat) : remaining e o = e - o := rfl
@[simp] theorem valueOff_eq (o : Nat) : valueOff o = o + 5 := rfl
@[simp] theorem nextOff_eq (o l : Nat) : nextOff o l = o + 5 + l := rfl
@[simp] theorem payloadLen_eq (e h : Nat) : payloadLen e h = e - h := rfl
@[simp] theorem payloadEnd_eq (c l n : Nat) : payloadEnd c l n = min (l + c) n := rfl

theorem hdrLen_eq (b : Bool) : hdrLen b = 8 + 8 * b.toNat := by cases b <;> rfl

theorem judgeHeader_cases (bias n : Nat) (f : HeaderFields) :
    (n < 8 ∧ judgeHeader bias n f = .invalid .short8) ∨
    (8 ≤ n ∧ f.s = true ∧ n < 16 ∧ judgeHeader bias n f = .invalid .short16) ∨
    (8 ≤ n ∧ (f.s = true → 16 ≤ n) ∧ f.length.toNat + bias < f.hlen ∧ judgeHeader bias n f = .badLength f) ∨
    (8 ≤ n ∧ (f.s = true → 16 ≤ n) ∧ f.hlen ≤ f.length.toNat + bias ∧
      judgeHeader bias n f =
        .ok f f.hlen (min (f.length.toNat + bias) n) (decide (n < f.length.toNat + bias))) := by
  unfold judgeHeader
  cases h8 : short8 n with
  | true => exact .inl ⟨short8_iff.mp h8, rfl⟩
  | false =>
    cases h16 : short16 n f.s with
    | true =>
      obtain ⟨h1, h2⟩ := short16_iff.mp h16
      exact .inr (.inl ⟨short8_false_iff.mp h8, h1, h2, rfl⟩)
    | false =>
      cases hb : badLen bias f.length.toNat f.hlen with
      | true =>
        exact .inr (.inr (.inl ⟨short8_false_iff.mp h8, short16_false_iff.mp h16, badLen_iff.mp hb, rfl⟩))
      | false =>
        exact .inr (.inr (.inr ⟨short8_false_iff.mp h8, short16_false_iff.mp h16, badLen_false_iff.mp hb, rfl⟩))

end Sys2Proof.Machine
end

