-- ==== Sys2Proof/Laws/PerInstr.lean ====
section
/-! SUPPORT. For every instruction: its encoding has the place, the length and the selecting bits of its row of the opcode
table (R99). -/

namespace Sys2Proof.Laws.EncodingFitsRow

/-- What the row of an instruction asks of an encoding: where it stands, how many bytes it has, and its match under its
mask. -/
def rowAccepts (i : Instr) (e : Encoded) : Prop :=
  match i with
  | .hdr8 _ _ _ _ _ => ∃ bs, e = .header bs ∧ bs.length = 8 ∧ sessionBit (bs.headD 0) = false
  | .hdr16 _ _ _ _ _ _ => ∃ bs, e = .header bs ∧ bs.length = 16 ∧ sessionBit (bs.headD 0) = true
  | .ie _ _ _ => ∃ bs, e = .element bs ∧ bs.length = 5
  | .nop _ => ∃ v, e = .access (.regWrite 0x00 v) ∧ commandBits v = 0
  | .start _ => ∃ v, e = .access (.regWrite 0x00 v) ∧ commandBits v = 1
  | .next _ => ∃ v, e = .access (.regWrite 0x00 v) ∧ commandBits v = 2
  | .clear _ => ∃ v, e = .access (.regWrite 0x00 v) ∧ commandBits v = 3
  | .load _ _ => ∃ a b, e = .access (.bufWrite a b)
  | .setlen _ => ∃ n, e = .access (.regWrite 0x02 n)
  | .rdreg _ => ∃ k, e = .access (.regRead k)
  | .rdbuf _ => ∃ a, e = .access (.bufRead a)
  | .msgtype1 => e = .code .messageType 0x01
  | .msgtype2 => e = .code .messageType 0x02
  | .msgtype50 => e = .code .messageType 0x32
  | .msgtype51 => e = .code .messageType 0x33
  | .ietype1 => e = .code .ieType 0x0001
  | .ietype3 => e = .code .ieType 0x0003
  | .ietype19 => e = .code .ieType 0x0013
  | .ietype60 => e = .code .ieType 0x003C
  | .ietype96 => e = .code .ieType 0x0060
  | .causeAccepted => e = .code .causeValue 0x01

def Statement (i : Instr) : Prop := i.wf = true → rowAccepts i (encode i)

theorem hdr8 flags mtype length seq spare : Statement (.hdr8 flags mtype length seq spare) := by
  intro h
  exact ⟨_, rfl, rfl, by simpa [Instr.wf] using h⟩

theorem hdr16 flags mtype length seid seq spare : Statement (.hdr16 flags mtype length seid seq spare) := by
  intro h
  exact ⟨_, rfl, rfl, by simpa [Instr.wf] using h⟩

theorem ie type length instByte : Statement (.ie type length instByte) := by
  intro _
  exact ⟨_, rfl, rfl⟩

theorem nop v : Statement (.nop v) := by
  intro h
  exact ⟨v, rfl, by simpa [Instr.wf] using h⟩

theorem start v : Statement (.start v) := by
  intro h
  exact ⟨v, rfl, by simpa [Instr.wf] using h⟩

theorem next v : Statement (.next v) := by
  intro h
  exact ⟨v, rfl, by simpa [Instr.wf] using h⟩

theorem clear v : Statement (.clear v) := by
  intro h
  exact ⟨v, rfl, by simpa [Instr.wf] using h⟩

theorem load a b : Statement (.load a b) := by
  intro _
  exact ⟨a, b, rfl⟩

theorem setlen n : Statement (.setlen n) := by
  intro _
  exact ⟨n, rfl⟩

theorem rdreg k : Statement (.rdreg k) := by
  intro _
  exact ⟨k, rfl⟩

theorem rdbuf a : Statement (.rdbuf a) := by
  intro _
  exact ⟨a, rfl⟩

theorem msgtype1 : Statement .msgtype1 := by
  intro _
  rfl

theorem msgtype2 : Statement .msgtype2 := by
  intro _
  rfl

theorem msgtype50 : Statement .msgtype50 := by
  intro _
  rfl

theorem msgtype51 : Statement .msgtype51 := by
  intro _
  rfl

theorem ietype1 : Statement .ietype1 := by
  intro _
  rfl

theorem ietype3 : Statement .ietype3 := by
  intro _
  rfl

theorem ietype19 : Statement .ietype19 := by
  intro _
  rfl

theorem ietype60 : Statement .ietype60 := by
  intro _
  rfl

theorem ietype96 : Statement .ietype96 := by
  intro _
  rfl

theorem causeAccepted : Statement .causeAccepted := by
  intro _
  rfl

end Sys2Proof.Laws.EncodingFitsRow
end

