-- ==== Sys2Proof/Laws/Turn.lean ====
section
/-! SUPPORT. What each turn, and so each step, can do: the parser's turn case by case, a host access, a label, a reset. -/

namespace Sys2Proof.Machine

/-- The fields of some header record: the length and the session id go with the flag. -/
structure HeaderFields.Shaped (f : HeaderFields) : Prop where
  hlen : f.hlen = hdrLen f.s
  seid : f.s = false → f.seid = none

theorem fieldsOfHdr8_shaped (flags mtype : Byte) (length : BitVec 16) (seq : BitVec 24) :
    (fieldsOfHdr8 flags mtype length seq).Shaped := ⟨rfl, fun _ => rfl⟩

theorem fieldsOfHdr16_shaped (flags mtype : Byte) (length : BitVec 16) (seid : BitVec 64) (seq : BitVec 24) :
    (fieldsOfHdr16 flags mtype length seid seq).Shaped := ⟨rfl, fun h => by simp [fieldsOfHdr16] at h⟩

/-- What the parser's turn can do to a state. -/
inductive ParserEffect (s : State) : State → Prop
  | none : s.phase ≠ .hdr → ieEnabled s = false → ParserEffect s s
  | header (f : HeaderFields) : s.phase = .hdr → f.Shaped →
      ParserEffect s (writeHeader (judgeHeader Config.lenBias s.dlen.toNat f) s)
  | emit (b4 : Byte) (l : BitVec 16) (t : BitVec 16) : s.phase = .ies → s.ieValid = false →
      5 ≤ s.endOff.toNat - s.off.toNat → l.toNat ≤ s.endOff.toNat - s.off.toNat - 5 →
      s.off.toNat + 5 ≤ s.dlen.toNat →
      t = be16 (bufByte s s.off.toNat) (bufByte s (s.off.toNat + 1)) →
      l = be16 (bufByte s (s.off.toNat + 2)) (bufByte s (s.off.toNat + 3)) →
      b4 = bufByte s (s.off.toNat + 4) →
      ParserEffect s (emitRecord t l (instanceOf b4) s)
  | stop : s.phase = .ies → s.ieValid = false →
      (s.endOff.toNat - s.off.toNat < 5 ∨ 5 ≤ s.endOff.toNat - s.off.toNat ∧ s.off.toNat + 5 ≤ s.dlen.toNat ∧
        s.endOff.toNat - s.off.toNat - 5 <
          (be16 (bufByte s (s.off.toNat + 2)) (bufByte s (s.off.toNat + 3))).toNat) →
      ParserEffect s (stopExtraction s)

theorem headerStep_eq {s : State} (f : HeaderFields) (h : s.phase = .hdr) :
    headerStep f s = .next (writeHeader (judgeHeader Config.lenBias s.dlen.toNat f) s) := by simp [headerStep, h]

/-- The header record that stands at offset 0 (R80, R87). -/
def headerAt (s : State) : Instr :=
  if sessionBit (bufByte s 0) then
    .hdr16 (bufByte s 0) (bufByte s 1) (be16 (bufByte s 2) (bufByte s 3))
      (be64 (bufByte s 4) (bufByte s 5) (bufByte s 6) (bufByte s 7) (bufByte s 8) (bufByte s 9) (bufByte s 10)
        (bufByte s 11)) (be24 (bufByte s 12) (bufByte s 13) (bufByte s 14)) (bufByte s 15)
  else
    .hdr8 (bufByte s 0) (bufByte s 1) (be16 (bufByte s 2) (bufByte s 3))
      (be24 (bufByte s 4) (bufByte s 5) (bufByte s 6)) (bufByte s 7)

/-- The record whose mini-header stands at `OFF` (R87). -/
def elementAt (s : State) : Instr :=
  .ie (be16 (bufByte s s.off.toNat) (bufByte s (s.off.toNat + 1)))
    (be16 (bufByte s (s.off.toNat + 2)) (bufByte s (s.off.toNat + 3))) (bufByte s (s.off.toNat + 4))

theorem decode_header_bufBytes (s : State) :
    decode (.header (bufBytes s 0 (hdrLen (sessionBit (bufByte s 0))))) = .ok (headerAt s) := by
  cases h : sessionBit (bufByte s 0) <;>
    simp [decode, decodeHeaderRecord, hdrLen, Config.hdrLong, Config.hdrShort, bufBytes, h, headerAt]

theorem decode_element_bufBytes (s : State) :
    decode (.element (bufBytes s s.off.toNat 5)) = .ok (elementAt s) := by
  simp [decode, decodeElementRecord, bufBytes, elementAt]

theorem hdrLen_le_of_fits {n : Nat} {b : Bool} (h8 : short8 n = false) (h16 : short16 n b = false) :
    hdrLen b ≤ n := by
  cases b <;> simp_all

/-- `HDRSTEP` on a datagram below 8 bytes (R151). -/
theorem parserTurn_short8 {s : State} (hp : s.phase = .hdr) (h8 : short8 s.dlen.toNat = true) :
    parserTurn s = .next (writeHeader (.invalid .short8) s) := by
  simp [parserTurn, parserFetch, fetchHeader, hp, h8]

/-- `HDRSTEP` on a datagram too short for its session id (R152). -/
theorem parserTurn_short16 {s : State} (hp : s.phase = .hdr) (h8 : short8 s.dlen.toNat = false)
    (h16 : short16 s.dlen.toNat (sessionBit (bufByte s 0)) = true) :
    parserTurn s = .next (writeHeader (.invalid .short16) s) := by
  simp [parserTurn, parserFetch, fetchHeader, hp, h8, h16]

/-- `HDRSTEP` on a whole header executes the header record at offset 0 (R80). -/
theorem parserTurn_header {s : State} (hp : s.phase = .hdr) (h8 : short8 s.dlen.toNat = false)
    (h16 : short16 s.dlen.toNat (sessionBit (bufByte s 0)) = false) :
    parserTurn s = exec (headerAt s) s := by
  have hl : hdrLen (sessionBit (bufByte s 0)) ≤ 16 := by
    cases sessionBit (bufByte s 0) <;> simp [hdrLen, Config.hdrLong, Config.hdrShort]
  have hm : memRead s 0 (hdrLen (sessionBit (bufByte s 0))) =
      some (bufBytes s 0 (hdrLen (sessionBit (bufByte s 0)))) :=
    memRead_some.mpr ⟨⟨by simpa using hdrLen_le_of_fits h8 h16, by omega⟩, rfl⟩
  simp [parserTurn, parserFetch, fetchHeader, hp, h8, h16, hm, decode_header_bufBytes]

theorem ieEnabled_iff {s : State} : ieEnabled s = true ↔ s.phase = .ies ∧ s.ieValid = false := by
  simp [ieEnabled]

/-- `IESTEP` with fewer than 5 bytes left (R134). -/
theorem parserTurn_noHeader {s : State} (hp : s.phase = .ies) (hv : s.ieValid = false)
    (h : s.endOff.toNat - s.off.toNat < 5) : parserTurn s = .next (stopExtraction s) := by
  have hf : ieHdrFits (remaining s.endOff.toNat s.off.toNat) = false := by simpa using h
  simp only [parserTurn, parserFetch, fetchElement, ieEnabled_iff.mpr ⟨hp, hv⟩, hp, hf]
  rfl

/-- `IESTEP` with a mini-header inside the datagram executes the record at `OFF` (R132). -/
theorem parserTurn_element {s : State} (hp : s.phase = .ies) (hv : s.ieValid = false)
    (h : 5 ≤ s.endOff.toNat - s.off.toNat) (hd : s.off.toNat + 5 ≤ s.dlen.toNat) :
    parserTurn s = exec (elementAt s) s := by
  have hf : ieHdrFits (remaining s.endOff.toNat s.off.toNat) = true := by simpa using h
  have hm : memRead s s.off.toNat Config.ieHdr = some (bufBytes s s.off.toNat 5) :=
    memRead_some.mpr ⟨⟨hd, by have := s.endOff.isLt; simp only [Config.ieHdr]; omega⟩, rfl⟩
  simp only [parserTurn, parserFetch, fetchElement, ieEnabled_iff.mpr ⟨hp, hv⟩, hp, hf, hm]
  simp [decode_element_bufBytes]

/-- `IESTEP` where `MemRead` is not defined (R11): only in states that no run reaches (R166). -/
theorem parserTurn_undefined {s : State} (hp : s.phase = .ies) (hv : s.ieValid = false)
    (h : 5 ≤ s.endOff.toNat - s.off.toNat) (hd : s.dlen.toNat < s.off.toNat + 5) :
    parserTurn s = .fault .memReadUndefined := by
  have hf : ieHdrFits (remaining s.endOff.toNat s.off.toNat) = true := by simpa using h
  have hm : memRead s s.off.toNat Config.ieHdr = none := by
    simp only [memRead, Config.ieHdr, ite_eq_right_iff]; omega
  simp only [parserTurn, parserFetch, fetchElement, ieEnabled_iff.mpr ⟨hp, hv⟩, hp, hf, hm]
  rfl

theorem parserTurn_notEnabled {s : State} (hp : s.phase ≠ .hdr) (he : ieEnabled s = false) :
    parserTurn s = .next s := by
  simp [parserTurn, parserFetch, hp, he]

/-- `IE` on a record that is enabled and whose mini-header fits (R132). -/
theorem execIe_eq {s : State} (t l : BitVec 16) (b : Byte) (hp : s.phase = .ies) (hv : s.ieValid = false)
    (h : 5 ≤ s.endOff.toNat - s.off.toNat) :
    execIe t l b s = if l.toNat ≤ s.endOff.toNat - s.off.toNat - 5 then .next (emitRecord t l (instanceOf b) s)
      else .next (stopExtraction s) := by
  simp [execIe, ieEnabled_iff.mpr ⟨hp, hv⟩, h]

/-- `IESTEP` on a whole record emits it (R132). -/
theorem parserTurn_emit {s : State} (hp : s.phase = .ies) (hv : s.ieValid = false) (hd : s.endOff.toNat ≤ s.dlen.toNat)
    (hl : s.off.toNat + 5 + (be16 (bufByte s (s.off.toNat + 2)) (bufByte s (s.off.toNat + 3))).toNat ≤ s.endOff.toNat) :
    parserTurn s = .next
      (emitRecord (be16 (bufByte s s.off.toNat) (bufByte s (s.off.toNat + 1)))
        (be16 (bufByte s (s.off.toNat + 2)) (bufByte s (s.off.toNat + 3))) (instanceOf (bufByte s (s.off.toNat + 4))) s) := by
  have h5 : 5 ≤ s.endOff.toNat - s.off.toNat := by omega
  rw [parserTurn_element hp hv h5 (by omega), elementAt, exec, execIe_eq _ _ _ hp hv h5, if_pos (by omega)]

/-- `IESTEP` on a mini-header whose value does not fit stops (R135). -/
theorem parserTurn_truncated {s : State} (hp : s.phase = .ies) (hv : s.ieValid = false)
    (h5 : 5 ≤ s.endOff.toNat - s.off.toNat) (hd : s.endOff.toNat ≤ s.dlen.toNat)
    (hl : s.endOff.toNat - s.off.toNat - 5 <
      (be16 (bufByte s (s.off.toNat + 2)) (bufByte s (s.off.toNat + 3))).toNat) :
    parserTurn s = .next (stopExtraction s) := by
  rw [parserTurn_element hp hv h5 (by omega), elementAt, exec, execIe_eq _ _ _ hp hv h5, if_neg (by omega)]

theorem parserTurn_effect {s t : State} (h : parserTurn s = .next t) : ParserEffect s t := by
  by_cases hp : s.phase = .hdr
  · cases h8 : short8 s.dlen.toNat with
    | true =>
      rw [parserTurn_short8 hp h8] at h
      cases h
      have := ParserEffect.header (s := s) (fieldsOfHdr8 0 0 0 0) hp (fieldsOfHdr8_shaped ..)
      simpa [judgeHeader, h8] using this
    | false =>
      cases h16 : short16 s.dlen.toNat (sessionBit (bufByte s 0)) with
      | true =>
        rw [parserTurn_short16 hp h8 h16] at h
        cases h
        have h16' : short16 s.dlen.toNat true = true := by
          simpa using (short16_iff.mp h16).2
        have := ParserEffect.header (s := s) (fieldsOfHdr16 0 0 0 0 0) hp (fieldsOfHdr16_shaped ..)
        simpa [judgeHeader, h8, h16', fieldsOfHdr16] using this
      | false =>
        rw [parserTurn_header hp h8 h16] at h
        unfold headerAt at h
        split at h <;>
          simp only [exec, execHdr8, execHdr16, headerStep_eq _ hp, Host.Outcome.next.injEq] at h <;> subst h
        · exact .header _ hp (fieldsOfHdr16_shaped ..)
        · exact .header _ hp (fieldsOfHdr8_shaped ..)
  · cases he : ieEnabled s with
    | false =>
      rw [parserTurn_notEnabled hp he] at h
      cases h
      exact .none hp he
    | true =>
      obtain ⟨hi, hv⟩ := ieEnabled_iff.mp he
      by_cases hf : s.endOff.toNat - s.off.toNat < 5
      · rw [parserTurn_noHeader hi hv hf] at h
        cases h
        exact .stop hi hv (.inl hf)
      · have hf : 5 ≤ s.endOff.toNat - s.off.toNat := by omega
        by_cases hd : s.off.toNat + 5 ≤ s.dlen.toNat
        · rw [parserTurn_element hi hv hf hd, elementAt, exec, execIe_eq _ _ _ hi hv hf] at h
          split at h
          · cases h; exact .emit _ _ _ hi hv hf (by assumption) hd rfl rfl rfl
          · cases h; exact .stop hi hv (.inr ⟨hf, hd, by omega⟩)
        · rw [parserTurn_undefined hi hv hf (by omega)] at h
          cases h

/-- What a host's access can do to a state. -/
inductive HostEffect (s : State) : HostAccess → State → Prop
  | reject {a} : accessRejected s a → HostEffect s a (rejectAccess s)
  | nop {v} : commandBits v = 0 → HostEffect s (.regWrite 0x00 v) s
  | start {v} : commandBits v = 1 → s.phase = .idle → HostEffect s (.regWrite 0x00 v) (beginRun s)
  | take {v} : commandBits v = 2 → s.ieValid = true → HostEffect s (.regWrite 0x00 v) (takeRecord s)
  | clear {v} : commandBits v = 3 → HostEffect s (.regWrite 0x00 v) (clearRun s)
  | load {a b} : s.phase = .idle → HostEffect s (.bufWrite a b) (memWrite a b s)
  | setlen {v} : s.phase = .idle → v.toNat ≤ 65536 → HostEffect s (.regWrite 0x02 v) (setDlen v.toNat s)
  | readRegister {k} : HostEffect s (.regRead k) (answerRegister (readRegister s k) s)
  | readBuffer {a} : HostEffect s (.bufRead a) (answerBuffer (bufByte s a.toNat) s)

/-- The four commands are all the values of `v[1:0]`. -/
theorem commandBits_cases (v : PortData) :
    commandBits v = 0 ∨ commandBits v = 1 ∨ commandBits v = 2 ∨ commandBits v = 3 := by
  generalize commandBits v = c
  revert c; decide

theorem hostTurn_effect (a : HostAccess) (s : State) : ∃ t, hostTurn a s = .next t ∧ HostEffect s a t := by
  cases a with
  | bufWrite a b =>
    by_cases h : s.phase = .idle
    · exact ⟨_, by simp only [hostTurn, decode, decodeAccess, exec, execLoad, h, if_true], .load h⟩
    · exact ⟨_, by simp only [hostTurn, decode, decodeAccess, exec, execLoad, h, if_false], .reject h⟩
  | bufRead a => exact ⟨_, rfl, .readBuffer⟩
  | regRead k => exact ⟨_, rfl, .readRegister⟩
  | regWrite k v =>
    by_cases h0 : k = 0
    · subst h0
      rcases commandBits_cases v with h | h | h | h
      · exact ⟨s, by simp [hostTurn, decode, decodeAccess, decodeCommand, exec, h, execNop], .nop h⟩
      · by_cases hp : s.phase = .idle
        · exact ⟨beginRun s, by simp [hostTurn, decode, decodeAccess, decodeCommand, exec, h, execStart, hp],
            .start h hp⟩
        · exact ⟨rejectAccess s, by simp [hostTurn, decode, decodeAccess, decodeCommand, exec, h, execStart, hp],
            .reject (by simp [accessRejected, h, hp])⟩
      · cases hv : s.ieValid
        · exact ⟨rejectAccess s, by simp [hostTurn, decode, decodeAccess, decodeCommand, exec, h, execNext, hv],
            .reject (by simp [accessRejected, h, hv])⟩
        · exact ⟨takeRecord s, by simp [hostTurn, decode, decodeAccess, decodeCommand, exec, h, execNext, hv],
            .take h hv⟩
      · exact ⟨clearRun s, by simp [hostTurn, decode, decodeAccess, decodeCommand, exec, h, execClear], .clear h⟩
    · by_cases h2 : k = 2
      · subst h2
        have e : ∀ o, (hostTurn (.regWrite 2 v) s = o) = (execSetlen v s = o) := by
          simp [hostTurn, decode, decodeAccess, exec]
        by_cases hp : s.phase = .idle ∧ v.toNat ≤ 65536
        · exact ⟨_, by rw [e]; simp only [execSetlen, Config.bufBytes]; rw [if_pos hp], .setlen hp.1 hp.2⟩
        · refine ⟨_, by rw [e]; simp only [execSetlen, Config.bufBytes]; rw [if_neg hp], .reject ?_⟩
          by_cases hi : s.phase = .idle
          · simpa [accessRejected, hi] using hp
          · simp [accessRejected, hi]
      · exact ⟨rejectAccess s, by simp [hostTurn, decode, decodeAccess, h0, h2], .reject (by simp [accessRejected, h0, h2])⟩

theorem labelTurn_eq (f : CodeField) (v : BitVec 16) (s : State) : labelTurn f v s = .next s := by
  unfold labelTurn
  split
  · next i h =>
    cases f <;> simp only [decode, decodeCode] at h <;> (repeat' split at h) <;> cases h <;> rfl
  · rfl

/-- What a turn can do to a state. -/
inductive TurnEffect (s : State) : Turn → State → Prop
  | parser {t} : ParserEffect s t → TurnEffect s .parser t
  | host {a t} : HostEffect s a t → TurnEffect s (.host a) t
  | label {f v} : TurnEffect s (.label f v) s
  | reset : TurnEffect s .reset (resetEvent s)

theorem takeTurn_effect {u : Turn} {s t : State} (h : takeTurn u s = .next t) : TurnEffect s u t := by
  cases u with
  | parser => exact .parser (parserTurn_effect h)
  | host a =>
    obtain ⟨t', h', he⟩ := hostTurn_effect a s
    rw [takeTurn, h'] at h
    cases h
    exact .host he
  | label f v =>
    rw [takeTurn, labelTurn_eq] at h
    cases h
    exact .label
  | reset => cases h; exact .reset

theorem step_effect {s t : State} (h : step s = .next t) :
    (s.schedule = [] ∧ ParserEffect s t) ∨
    ∃ u rest, s.schedule = u :: rest ∧ TurnEffect { s with schedule := rest } u t := by
  unfold step nextTurn at h
  split at h
  · exact .inl ⟨by assumption, parserTurn_effect h⟩
  · exact .inr ⟨_, _, by assumption, takeTurn_effect h⟩

end Sys2Proof.Machine
end

