-- ==== Sys2Proof/Tests/Slice0.lean ====
section
/-! SUPPORT. Tests: expected values are those of spec/95_test_vectors.md (the row is named) or words written out bit by
bit from spec/30_encoding.md; and for every obligation with hypotheses a witness that meets them. -/

namespace Sys2Proof.Tests

open Sys2Proof Sys2Proof.Machine

/-! ### Ill-formed terms are refused -/

theorem test_wf_hdr8_with_session_flag : (Instr.hdr8 0x24 1 8 42 0).wf = false := by decide
theorem test_wf_hdr16_without_session_flag : (Instr.hdr16 0x20 1 16 0 42 0).wf = false := by decide
theorem test_wf_nop_with_bit0 : (Instr.nop 1).wf = false := by decide
theorem test_wf_start_with_bit1 : (Instr.start 3).wf = false := by decide
theorem test_wf_next_without_bit1 : (Instr.next 4).wf = false := by decide
theorem test_wf_clear_with_other_bits : (Instr.clear 0xFFFFFFFFFFFFFFFE).wf = false := by decide

/-! ### Decoding of words written out from the encodings -/

/-- Flags `001 00 0 00`, type 1, length 17, sequence 42, spare 0 (R81). -/
theorem test_decode_hdr8 :
    decode (.header [0b00100000, 0b00000001, 0b00000000, 0b00010001, 0b00000000, 0b00000000, 0b00101010, 0b00000000])
      = .ok (.hdr8 0x20 1 17 42 0) := by decide
/-- Flags `111 11 0 11`: all the reserved bits, still no session id (H8). -/
theorem test_decode_hdr8_reserved :
    decode (.header [0xFB, 0x99, 0x00, 0x08, 0xFF, 0xFF, 0xFF, 0x5A]) = .ok (.hdr8 0xFB 153 8 16777215 0x5A) := by decide
/-- Flags `001 00 1 00`; the session id lies at offsets 4 to 11, the sequence at 12 to 14 (R82, H6). -/
theorem test_decode_hdr16 :
    decode (.header [0b00100100, 50, 0, 16, 0, 0, 0, 0, 0, 0, 0, 1, 0, 0, 7, 0]) = .ok (.hdr16 0x24 50 16 1 7 0) := by
  decide
/-- Type 96, length 4, instance byte `1100 0011` (R84, R85). -/
theorem test_decode_ie :
    decode (.element [0b00000000, 0b01100000, 0b00000000, 0b00000100, 0b11000011]) = .ok (.ie 96 4 0xC3) := by decide
theorem test_instance_of_C3 : instanceOf 0xC3 = 3 := by decide
theorem test_version_of_FB : versionOf 0xFB = 7 := by decide
/-- `v[1:0]` = 0, every other bit 1 (T2k). -/
theorem test_decode_nop : decode (.access (.regWrite 0x00 0xFFFFFFFFFFFFFFFC)) = .ok (.nop 0xFFFFFFFFFFFFFFFC) := by
  decide
/-- `v` = `...101` (T2l). -/
theorem test_decode_start : decode (.access (.regWrite 0x00 0b101)) = .ok (.start 5) := by decide
theorem test_decode_next : decode (.access (.regWrite 0x00 0b10)) = .ok (.next 2) := by decide
theorem test_decode_clear : decode (.access (.regWrite 0x00 0b1011)) = .ok (.clear 11) := by decide
theorem test_decode_load : decode (.access (.bufWrite 0x0100 0xC3)) = .ok (.load 256 0xC3) := by decide
theorem test_decode_setlen : decode (.access (.regWrite 0x02 17)) = .ok (.setlen 17) := by decide
theorem test_decode_rdreg : decode (.access (.regRead 0x0A)) = .ok (.rdreg 10) := by decide
theorem test_decode_rdbuf : decode (.access (.bufRead 0xFFFF)) = .ok (.rdbuf 65535) := by decide
theorem test_decode_msgtype1 : decode (.code .messageType 0x01) = .ok .msgtype1 := by decide
theorem test_decode_msgtype2 : decode (.code .messageType 0x02) = .ok .msgtype2 := by decide
theorem test_decode_msgtype50 : decode (.code .messageType 0x32) = .ok .msgtype50 := by decide
theorem test_decode_msgtype51 : decode (.code .messageType 0x33) = .ok .msgtype51 := by decide
theorem test_decode_ietype1 : decode (.code .ieType 0x0001) = .ok .ietype1 := by decide
theorem test_decode_ietype3 : decode (.code .ieType 0x0003) = .ok .ietype3 := by decide
theorem test_decode_ietype19 : decode (.code .ieType 0x0013) = .ok .ietype19 := by decide
theorem test_decode_ietype60 : decode (.code .ieType 0x003C) = .ok .ietype60 := by decide
theorem test_decode_ietype96 : decode (.code .ieType 0x0060) = .ok .ietype96 := by decide
theorem test_decode_causeAccepted : decode (.code .causeValue 0x01) = .ok .causeAccepted := by decide

theorem test_refuse_short_header : decode (.header [0x20, 1, 0, 8, 0, 0, 0x2A]) = .error .headerBelow8 := by decide
theorem test_refuse_short_session_header :
    decode (.header [0x24, 0x32, 0, 0x10, 0, 0, 0, 0, 0, 0, 0, 1, 0, 0, 7]) = .error .headerBelow16 := by decide
theorem test_refuse_short_element : decode (.element [0x00, 0x13, 0x00, 0x01]) = .error .elementBelow5 := by decide
theorem test_refuse_other_register : decode (.access (.regWrite 0x0A 5)) = .error (.writeToOther 10) := by decide
theorem test_refuse_unnamed_code : decode (.code .messageType 153) = .error .unnamedCode := by decide

theorem test_table_word_hdr8 : decodeTableWord 64 0x2001001100002A00 = some (.hdr8 0x20 1 17 42 0) := by decide
theorem test_table_word_hdr16 :
    decodeTableWord 128 0x24320010000000000000000100000700 = some (.hdr16 0x24 50 16 1 7 0) := by decide
theorem test_table_word_ie : decodeTableWord 40 0x00600004C3 = some (.ie 96 4 0xC3) := by decide
theorem test_table_word_next : decodeTableWord 64 2 = some (.next 2) := by decide
theorem test_table_word_msgtype50 : decodeTableWord 8 0x32 = some .msgtype50 := by decide
theorem test_table_word_ietype60 : decodeTableWord 16 0x3C = some .ietype60 := by decide

/-! ### Small states -/

/-- The bytes loaded from offset 0 up, `DLEN` set to their number, `START` accepted. -/
def started (bs : List Byte) : State :=
  { storeBytes 0 bs State.reset with dlen := BitVec.ofNat 17 bs.length, phase := .hdr }

/-- Program P1's datagram (F1). -/
def p1Bytes : List Byte :=
  [0x20, 0x01, 0x00, 0x11, 0x00, 0x00, 0x2A, 0x00, 0x00, 0x60, 0x00, 0x04, 0x00, 0xE8, 0xFE, 0x6F, 0x80]

/-- P1 in IDLE, loaded. -/
def p1Idle : State := { started p1Bytes with phase := .idle }

/-- P1 in HDR. -/
def p1Hdr : State := started p1Bytes

/-- P1 after `HDRSTEP`, from the table of P1. -/
def p1Ies : State :=
  { started p1Bytes with
    phase := .ies, off := 8, endOff := 17, hValid := true, hVer := 1, hType := 1, hLen := 17, hSeq := 42, hHlen := 8
    pLen := 9 }

/-- P1 with its record presented, from the table of P1. -/
def p1Record : State :=
  { p1Ies with ieValid := true, ieType := 96, ieLen := 4, ieVoff := 13, ieCount := 1, off := 17 }

/-- P1 at its end, from the table of P1. -/
def p1Done : State := { p1Ies with ieCount := 1, off := 17, phase := .done }

/-- H2 after `HDRSTEP`: BADLEN. -/
def h2Error : State :=
  { started [0x20, 0x01, 0x00, 0x07, 0x00, 0x00, 0x2A, 0x00] with
    phase := .error, err := .badLen, hValid := true, hVer := 1, hType := 1, hLen := 7, hSeq := 42, hHlen := 8 }

/-- A state just after the header step of an `HDR8` datagram, `LEN_BIAS` 0, `length` the datagram's size. -/
def opened (bs : List Byte) : State :=
  { started bs with
    phase := .ies, off := 8, endOff := BitVec.ofNat 16 bs.length, hValid := true
    hLen := BitVec.ofNat 16 bs.length, hHlen := 8, pLen := BitVec.ofNat 16 (bs.length - 8) }

/-- I6's payload behind a header: 9 bytes whose record would need 10. -/
def i6 : State := opened [0x20, 1, 0, 17, 0, 0, 0, 0, 0x00, 0x03, 0x00, 0x05, 0x00, 0x11, 0x22, 0x33, 0x44]

/-- I11's payload behind a header: 4 bytes. -/
def i11 : State := opened [0x20, 1, 0, 12, 0, 0, 0, 0, 0x00, 0x13, 0x00, 0x01]

/-- H5's 15 bytes with the session flag. -/
def h5 : State := started [0x24, 0x32, 0, 0x10, 0, 0, 0, 0, 0, 0, 0, 1, 0, 0, 7]

/-- H6's 16 bytes with the session flag. -/
def h6 : State := started [0x24, 0x32, 0, 0x10, 0, 0, 0, 0, 0, 0, 0, 1, 0, 0, 7, 0]

/-- H3: seven bytes. -/
def h3 : State := started [0x20, 0x01, 0x00, 0x08, 0x00, 0x00, 0x2A]

/-- Eight bytes with the session flag. -/
def short16At8 : State := started [0x24, 0x01, 0x00, 0x08, 0x00, 0x00, 0x2A, 0x00]

/-- P1 with its record taken and none left. -/
def p1End : State := { p1Done with phase := .ies }

/-! ### One step each -/

/-- P1's first row. -/
theorem test_hdrstep_p1 : step { p1Hdr with schedule := [.parser] } = .next p1Ies := by rfl
/-- H2: `length` one below the header. -/
theorem test_hdrstep_h2 :
    step { started [0x20, 0x01, 0x00, 0x07, 0x00, 0x00, 0x2A, 0x00] with schedule := [.parser] } = .next h2Error := by
  rfl
/-- H5: `STATUS` 0x0044 and no field. -/
theorem test_hdrstep_h5 :
    (afterTurn .parser h5).map (fun t => (status t, t.hValid, t.hType, t.hLen)) = some (0x0044, false, 0, 0) := by decide
/-- H4: the empty datagram, SHORT8. -/
theorem test_hdrstep_h4 : (afterTurn .parser (started [])).map status = some 0x0024 := by decide
/-- H8: everything ignored is ignored. -/
theorem test_hdr8_h8 :
    exec (.hdr8 0xFB 153 8 16777215 0x5A) (started [0xFB, 0x99, 0, 8, 0xFF, 0xFF, 0xFF, 0x5A]) =
      .next
        { started [0xFB, 0x99, 0, 8, 0xFF, 0xFF, 0xFF, 0x5A] with
          phase := .ies, off := 8, endOff := 8, hValid := true, hVer := 7, hType := 153, hLen := 8, hSeq := 16777215
          hHlen := 8 } := by rfl
/-- H9: `length` 100 in a 20-byte datagram. -/
theorem test_hdr8_h9_clamp :
    (afterTurn .parser (started [0x20, 1, 0, 0x64, 0, 0, 1, 0, 0, 0, 0, 0, 0, 0, 0, 0, 0, 0, 0, 0])).map
      (fun t => (status t, t.endOff, t.pLen)) = some (0x0512, 20, 12) := by decide
/-- H6: the smallest `HDR16`. -/
theorem test_hdr16_h6 :
    (afterTurn .parser h6).map (fun t => (status t, t.hSeid, t.hSeq, t.off, t.endOff)) = some (0x0412, 1, 7, 16, 16) := by
  decide
/-- H7b: `length` 8 with the session flag: BADLEN against 16. -/
theorem test_hdr16_h7b :
    (afterTurn .parser (started [0x24, 0x32, 0, 8, 0, 0, 0, 0, 0, 0, 0, 1, 0, 0, 7, 0])).map
      (fun t => (status t, t.hLen, t.hHlen, t.off)) = some (0x0074, 8, 16, 0) := by decide
/-- P1's second row. -/
theorem test_iestep_p1 : step { p1Ies with schedule := [.parser] } = .next p1Record := by rfl
/-- I5: instance byte 0xA7 gives 7. -/
theorem test_ie_i5_instance :
    (afterTurn .parser (opened [0x20, 1, 0, 15, 0, 0, 0, 0, 0x00, 0x01, 0x00, 0x02, 0xA7, 0xDE, 0xAD])).bind recordView =
      some { type := 1, length := 2, inst := 7, value := [0xDE, 0xAD] } := by decide
/-- I6: one byte short, nothing is emitted. -/
theorem test_iestep_i6_truncated : step { i6 with schedule := [.parser] } = .next { i6 with phase := .done } := by rfl
/-- P1's last row: `NEXT`, then the step that ends it. -/
theorem test_next_p1 : exec (.next 2) p1Record = .next { p1Record with ieValid := false, ieType := 0, ieLen := 0, ieVoff := 0 } := by
  rfl
theorem test_iestep_p1_end :
    step { p1Done with phase := .ies, schedule := [.parser] } = .next p1Done ∧ status p1Done = 0x0013 := ⟨rfl, by decide⟩
/-- T2a: `NEXT` in IDLE, `STATUS` 0x0200 after it. -/
theorem test_next_t2a : (afterTurn (.host (.regWrite 0 2)) p1Idle).map status = some 0x0200 := by decide
/-- T2k. -/
theorem test_nop_t2k : exec (.nop 0xFFFFFFFFFFFFFFFC) p1Idle = .next p1Idle := by rfl
/-- T2l: `START`, then `STATUS` 0x0401. -/
theorem test_start_t2l : (afterTurn (.host (.regWrite 0 5)) p1Idle).map status = some 0x0401 := by decide
/-- T2e: `START` in IES, `STATUS` 0x0612. -/
theorem test_start_t2e : (afterTurn (.host (.regWrite 0 1)) p1Ies).map status = some 0x0612 := by decide
/-- T2h: `PROTO` survives `CLEAR`, and `DLEN` does. -/
theorem test_clear_t2h :
    (afterTurn (.host (.regWrite 0 3)) { p1Done with proto := true }).map (fun t => (status t, t.dlen, t.off)) =
      some (0x0200, 17, 0) := by decide
/-- T2d: `LOAD(0, 0x24)` in HDR: the byte is still 0x20, `STATUS` 0x0601. -/
theorem test_load_t2d :
    (afterTurn (.host (.bufWrite 0 0x24)) p1Hdr).map (fun t => (bufByte t 0, status t)) = some (0x20, 0x0601) := by decide
theorem test_load_in_idle :
    (afterTurn (.host (.bufWrite 3 0x24)) p1Idle).map (fun t => (bufByte t 3, bufByte t 2, bufByte t 4)) =
      some (0x24, 0x00, 0x00) := by decide
/-- T2b, T2c. -/
theorem test_setlen_t2b :
    (afterTurn (.host (.regWrite 2 65537)) p1Idle).map (fun t => (t.dlen, status t)) = some (17, 0x0200) := by decide
theorem test_setlen_t2c :
    (afterTurn (.host (.regWrite 2 65536)) p1Idle).map (fun t => (t.dlen, status t)) = some (65536, 0) := by decide
/-- P1's `STATUS` with the record presented. -/
theorem test_rdreg_status : exec (.rdreg 1) p1Record = .next { p1Record with regData := some 0x001A } := by rfl
/-- `CMD` reads 0 (T5). -/
theorem test_rdreg_cmd : exec (.rdreg 0) p1Record = .next { p1Record with regData := some 0 } := by rfl
theorem test_rdbuf_last_byte : exec (.rdbuf 16) p1Done = .next { p1Done with bufData := some 0x80 } := by rfl
/-- T2i: a write to `H_TYPE`. -/
theorem test_write_t2i : step { p1Ies with schedule := [.host (.regWrite 0x0A 5)] } = .next { p1Ies with proto := true } := by
  rfl
theorem test_label_selects_nothing : step { p1Ies with schedule := [.label .messageType 50] } = .next p1Ies := by rfl
theorem test_reset_event :
    (afterTurn .reset { p1Done with proto := true }).map (fun t => (status t, t.dlen, t.buf)) = some (0, 0, []) := by decide

/-- An `HDR8` word placed after reset is the next step's instruction. -/
theorem test_fetch_word_hdr8 :
    step (State.reset.withFetchWord 64 0x2001000800002A00) =
      exec (.hdr8 0x20 1 8 42 0) { State.reset.withFetchWord 64 0x2001000800002A00 with schedule := [] } := by rfl
theorem test_fetch_word_ie :
    step (State.reset.withFetchWord 40 0x0060000400) =
      exec (.ie 96 4 0) { State.reset.withFetchWord 40 0x0060000400 with schedule := [] } := by rfl

/-! ### The source's functions -/

/-- I10. -/
theorem test_decodeAll_i10 :
    decodeAll [0x00, 0x3C, 0x00, 0x05, 0x00, 0x00, 0xC0, 0x00, 0x02, 0x01, 0x00, 0x13, 0x00, 0x01, 0x00, 0x01,
        0x00, 0x60, 0x00, 0x04, 0x00, 0xE8, 0xFE, 0x6F, 0x80] =
      [{ type := 60, length := 5, inst := 0, value := [0x00, 0xC0, 0x00, 0x02, 0x01] },
       { type := 19, length := 1, inst := 0, value := [0x01] },
       { type := 96, length := 4, inst := 0, value := [0xE8, 0xFE, 0x6F, 0x80] }] := by decide
/-- I7: nothing after a record that is not whole. -/
theorem test_decodeAll_i7 :
    decodeAll [0x00, 0x13, 0x00, 0x01, 0x00, 0x01, 0x00, 0x03, 0x00, 0x09, 0x00, 0x00, 0x13, 0x00, 0x01, 0x00, 0x01] =
      [{ type := 19, length := 1, inst := 0, value := [0x01] }] := by decide
/-- X2, X3, X1. -/
theorem test_encode_x2 : causeIe 1 = some [0x00, 0x13, 0x00, 0x01, 0x00, 0x01] := by decide
theorem test_encode_x3 : nodeId4Ie 192 0 2 1 = some [0x00, 0x3C, 0x00, 0x05, 0x00, 0x00, 0xC0, 0x00, 0x02, 0x01] := by
  decide
theorem test_encode_x1 : recoveryTsIe 3908988800 = some [0x00, 0x60, 0x00, 0x04, 0x00, 0xE8, 0xFE, 0x6F, 0x80] := by decide
/-- X7. -/
theorem test_encode_x7 : encodeHeader 1 0 42 none = some [0x20, 0x01, 0x00, 0x04, 0x00, 0x00, 0x2A, 0x00] := by decide
/-- X8. -/
theorem test_encode_x8 :
    encodeHeader 51 15 258 (some 0x0000A1B2C3D4E5F6) =
      some [0x24, 0x33, 0x00, 0x1B, 0x00, 0x00, 0xA1, 0xB2, 0xC3, 0xD4, 0xE5, 0xF6, 0x00, 0x01, 0x02, 0x00] := by decide

/-- E2 and F1: the encoder's length and the total length. -/
theorem test_msg8_e2 : msg8 1 42 [] = some [0x20, 0x01, 0x00, 0x04, 0x00, 0x00, 0x2A, 0x00] := by decide
theorem test_msg8Total_f1 : msg8Total 1 42 [0x00, 0x60, 0x00, 0x04, 0x00, 0xE8, 0xFE, 0x6F, 0x80] = some p1Bytes := by decide
/-- X9: an `MSG16` without records. -/
theorem test_msg16_x9 :
    msg16 50 0x1234 7 [] = some [0x24, 0x32, 0x00, 0x0C, 0x00, 0x00, 0x00, 0x00, 0x00, 0x00, 0x12, 0x34, 0, 0, 7, 0] := by
  decide
/-- H6: an `MSG16.T` without records. -/
theorem test_msg16Total_h6 :
    msg16Total 50 1 7 [] = some [0x24, 0x32, 0x00, 0x10, 0, 0, 0, 0, 0, 0, 0, 1, 0, 0, 7, 0] := by decide

/-! ### The invariant in the states of program P1 -/

theorem reset_inv : State.reset.Inv := by constructor <;> decide
theorem p1Idle_inv : p1Idle.Inv := by constructor <;> decide
theorem p1Hdr_inv : p1Hdr.Inv := by constructor <;> decide
theorem p1Ies_inv : p1Ies.Inv := by constructor <;> decide
theorem p1Record_inv : p1Record.Inv := by constructor <;> decide
theorem p1Done_inv : p1Done.Inv := by constructor <;> decide
theorem h2Error_inv : h2Error.Inv := by constructor <;> decide

/-! ### Witnesses: one for each statement with hypotheses, at the ends of its ranges -/

theorem witness_LengthFunctionsAreTheRulesArithmetic : (8 ≤ 8 ∧ 8 ≤ 17) ∧ 5 ≤ remaining 13 8 := by decide

theorem witness_DecodeOfEncodeIsTheInstruction :
    (Instr.hdr8 0xFB 153 8 16777215 0x5A).wf = true ∧ (Instr.hdr16 0xFF 0 16 0xFFFFFFFFFFFFFFFF 16777215 0xA5).wf = true ∧
    (Instr.ie 65535 0 0xFF).wf = true ∧ (Instr.nop 0xFFFFFFFFFFFFFFFC).wf = true ∧ (Instr.start 5).wf = true ∧
    (Instr.next 2).wf = true ∧ (Instr.clear 0xFFFFFFFFFFFFFFFF).wf = true := by decide

theorem witness_EncodeOfDecodeIsWhatWasRead :
    decode (.header [0x20, 1, 0, 8, 0, 0, 0x2A, 0, 0x77]) = .ok (.hdr8 0x20 1 8 42 0) ∧
    decode (.element [0, 0x13, 0, 1, 0, 1]) = .ok (.ie 19 1 0) ∧
    decode (.access (.regWrite 0x00 3)) = .ok (.clear 3) ∧ decode (.code .causeValue 1) = .ok .causeAccepted := by decide

theorem witness_StepRunsTheDecodedInstruction :
    (h6.phase = .hdr ∧ 8 ≤ h6.dlen.toNat ∧ hdrLen (sessionBit (bufByte h6 0)) ≤ h6.dlen.toNat ∧
      decode (.header (bufBytes h6 0 (hdrLen (sessionBit (bufByte h6 0))))) = .ok (.hdr16 0x24 50 16 1 7 0)) ∧
    (p1Ies.phase = .ies ∧ p1Ies.ieValid = false ∧ 5 ≤ p1Ies.endOff.toNat - p1Ies.off.toNat ∧
      p1Ies.off.toNat + 5 ≤ p1Ies.dlen.toNat ∧
      decode (.element (bufBytes p1Ies p1Ies.off.toNat 5)) = .ok (.ie 96 4 0)) ∧
    decode (.access (.bufRead 0xFFFF)) = .ok (.rdbuf 65535) ∧ decode (.code .ieType 96) = .ok .ietype96 := by decide

theorem witness_EveryStepKeepsTheInvariant : p1Ies.Inv ∧ step p1Ies = .next p1Record := ⟨p1Ies_inv, rfl⟩

theorem witness_ParserReadsStayInsideTheDatagram :
    p1Ies.Inv ∧ parserFetch p1Ies = .record (.element [0x00, 0x60, 0x00, 0x04, 0x00]) ∧
    p1Hdr.Inv ∧ parserFetch p1Hdr = .record (.header [0x20, 0x01, 0x00, 0x11, 0x00, 0x00, 0x2A, 0x00]) ∧
    p1Record.Inv ∧ p1Record.ieValid = true := by
  exact ⟨p1Ies_inv, by decide, p1Hdr_inv, by decide, p1Record_inv, rfl⟩

/-- The answers without a whole record, at the ends of their ranges, and a byte loaded at `DLEN`. -/
theorem witness_ParserReadsStayInsideTheDatagram_short :
    (h5.Inv ∧ parserFetch h5 = .short .short16) ∧ (short16At8.Inv ∧ parserFetch short16At8 = .short .short16 ∧
      sessionBit (bufByte { short16At8 with buf := [(0, 0xFF)], epoch := 1 } 0) = true) ∧
    (h3.Inv ∧ parserFetch h3 = .short .short8) ∧ (p1End.Inv ∧ parserFetch p1End = .noHeader) ∧
    (∀ a, a < p1Hdr.dlen.toNat → bufByte { p1Hdr with buf := p1Hdr.buf.put 17 0x99, epoch := 1 } a = bufByte p1Hdr a) := by
  exact ⟨⟨by constructor <;> decide, by decide⟩, ⟨by constructor <;> decide, by decide, by decide⟩,
    ⟨by constructor <;> decide, by decide⟩, ⟨by constructor <;> decide, by decide⟩, by decide⟩

/-- H1's 8 bytes. -/
def h1 : State := started [0x20, 0x01, 0x00, 0x08, 0x00, 0x00, 0x2A, 0x00]

theorem witness_Hdr8WritesTheDecodedHeader : h1.phase = .hdr ∧ 8 ≤ h1.dlen.toNat ∧ 8 ≤ (8#16).toNat := by decide

theorem witness_Hdr16WritesTheDecodedHeader : h6.phase = .hdr ∧ 16 ≤ h6.dlen.toNat ∧ 16 ≤ (16#16).toNat := by decide

theorem witness_BadLengthKeepsFieldsAndEntersError :
    (h1.phase = .hdr ∧ 8 ≤ h1.dlen.toNat ∧ (7#16).toNat < 8) ∧ (h6.phase = .hdr ∧ 16 ≤ h6.dlen.toNat ∧ (15#16).toNat < 16) := by
  decide

theorem witness_ShortDatagramRaisesItsCause :
    (h3.phase = .hdr ∧ h3.dlen.toNat < 8) ∧
    (h5.phase = .hdr ∧ 8 ≤ h5.dlen.toNat ∧ h5.dlen.toNat < 16 ∧ sessionBit (bufByte h5 0) = true) ∧
    (short16At8.phase = .hdr ∧ 8 ≤ short16At8.dlen.toNat ∧ short16At8.dlen.toNat < 16 ∧
      sessionBit (bufByte short16At8 0) = true) := by decide

theorem witness_ShortInputNeverYieldsAPartialMessage :
    (h5.phase = .hdr ∧ sessionBit (bufByte h5 0) = true ∧ h5.dlen.toNat < 16 ∧
      ∃ t, step { h5 with schedule := [.parser] } = .next t) ∧
    (h3.phase = .hdr ∧ h3.dlen.toNat < 8 ∧ ∃ t, step { h3 with schedule := [.parser] } = .next t) :=
  ⟨⟨rfl, by decide, by decide, _, rfl⟩, ⟨rfl, by decide, _, rfl⟩⟩

theorem witness_HeaderStepAgreesWithDecodeHeader :
    p1Hdr.phase = .hdr ∧ p1Ies.phase ≠ .hdr ∧ step { p1Ies with schedule := [.parser] } = .next p1Record :=
  ⟨rfl, by decide, rfl⟩

theorem witness_HeaderLengthFollowsTheFlagAlone :
    (p1Hdr.hValid = true → p1Hdr.hHlen.toNat = 8 + 8 * p1Hdr.hS.toNat) ∧ step p1Hdr = .next p1Ies ∧
      p1Ies.hValid = true := ⟨by decide, rfl, rfl⟩

theorem witness_ReservedBitsHaveNoEffect :
    ((0x20#8).extractLsb' 5 3 = (0x3B#8).extractLsb' 5 3 ∧ (0x20#8).getLsbD 2 = (0x3B#8).getLsbD 2 ∧
      ([1, 0, 8, 0, 0, 0x2A] : List Byte).length = (if (0x20#8).getLsbD 2 then 14 else 6) ∧
      decode (.header (0x20 :: [1, 0, 8, 0, 0, 0x2A] ++ [0])) = .ok (.hdr8 0x20 1 8 42 0) ∧
      decode (.header (0x3B :: [1, 0, 8, 0, 0, 0x2A] ++ [0xFF])) = .ok (.hdr8 0x3B 1 8 42 0xFF)) ∧
    ((0xA7#8).extractLsb' 0 4 = (0x07#8).extractLsb' 0 4 ∧ ([0, 1, 0, 2] : List Byte).length = 4 ∧
      decode (.element ([0, 1, 0, 2] ++ [0xA7])) = .ok (.ie 1 2 0xA7) ∧
      decode (.element ([0, 1, 0, 2] ++ [0x07])) = .ok (.ie 1 2 0x07)) := by decide

theorem witness_CodesPassThroughUnexamined :
    ((∃ a, exec (.hdr8 0x20 1 8 42 0) h1 = .next a) ∧ (∃ b, exec (.hdr8 0xE0 153 8 42 0) h1 = .next b) ∧
      h1.phase = .hdr ∧ 8 ≤ h1.dlen.toNat) ∧
    ((∃ a, exec (.hdr16 0x24 50 16 1 7 0) h6 = .next a) ∧ (∃ b, exec (.hdr16 0xE4 0 16 1 7 0) h6 = .next b) ∧
      h6.phase = .hdr ∧ 16 ≤ h6.dlen.toNat) ∧
    (exec (.ie 96 4 0) p1Ies = .next p1Record ∧ (∃ b, exec (.ie 65535 4 0) p1Ies = .next b) ∧
      p1Ies.ieValid = false ∧ p1Record.ieValid = true) :=
  ⟨⟨⟨_, rfl⟩, ⟨_, rfl⟩, rfl, by decide⟩, ⟨⟨_, rfl⟩, ⟨_, rfl⟩, rfl, by decide⟩, ⟨rfl, ⟨_, rfl⟩, rfl, rfl⟩⟩

theorem witness_IeEmitsAWholeRecord :
    p1Ies.phase = .ies ∧ p1Ies.ieValid = false ∧ p1Ies.off.toNat + 5 + (4#16).toNat ≤ p1Ies.endOff.toNat := by decide

theorem witness_IeNotWholeEndsTheSequence :
    p1Ies.phase = .ies ∧ p1Ies.ieValid = false ∧ p1Ies.endOff.toNat < p1Ies.off.toNat + 5 + (5#16).toNat := by decide

theorem witness_NoMiniHeaderLeftStopsSilently :
    i11.phase = .ies ∧ i11.ieValid = false ∧ i11.endOff.toNat - i11.off.toNat < 5 := by decide

theorem witness_TruncatedRecordIsDroppedSilently :
    i6.phase = .ies ∧ i6.ieValid = false ∧ i6.endOff.toNat ≤ i6.dlen.toNat ∧ 5 ≤ i6.endOff.toNat - i6.off.toNat ∧
    i6.endOff.toNat - i6.off.toNat - 5 < (be16 (bufByte i6 (i6.off.toNat + 2)) (bufByte i6 (i6.off.toNat + 3))).toNat := by
  decide

theorem witness_IeStepEmitsTheRecordAtOff :
    p1Ies.phase = .ies ∧ p1Ies.ieValid = false ∧ p1Ies.endOff.toNat ≤ p1Ies.dlen.toNat ∧
    p1Ies.off.toNat + 5 + (be16 (bufByte p1Ies (p1Ies.off.toNat + 2)) (bufByte p1Ies (p1Ies.off.toNat + 3))).toNat ≤
      p1Ies.endOff.toNat := by decide

theorem witness_HostSeesExactlyDecodeAll :
    p1Ies.Inv ∧ p1Ies.phase = .ies ∧ p1Ies.ieValid = false ∧ p1Ies.off.toNat = p1Ies.hHlen.toNat ∧ p1Ies.ieCount = 0 :=
  ⟨p1Ies_inv, by decide⟩

theorem witness_DatagramComesThroughToItsRecords : State.reset.Inv ∧ State.reset.phase = .idle := ⟨reset_inv, rfl⟩

theorem witness_SingleRecordRoundTrip :
    ([] : List Byte).length ≤ 65535 ∧ (List.replicate 65535 (0 : Byte)).length ≤ 65535 := by
  rw [List.length_replicate]
  decide

theorem witness_ConcatenatedRecordsDecodeInOrder :
    (∀ r ∈ [IeRecord.mk 19 1 0 [1], IeRecord.mk 96 0 15 []], r.value.length = r.length.toNat) ∧
    ([0xFF, 0xFF, 0xFF, 0xFF] : List Byte).length < 5 ∧
    ([0, 3, 0, 1, 0] : List Byte).length - 5 < (be16At [0, 3, 0, 1, 0] 2).toNat := by decide

theorem witness_EncodedHeaderFieldsRoundTrip :
    (encodeHeader 1 3 42 none = some [0x20, 1, 0, 7, 0, 0, 0x2A, 0] ∧ (3#16).toNat < 4) ∧
    (encodeHeader 1 4 42 (some 1) = some [0x24, 1, 0, 16, 0, 0, 0, 0, 0, 0, 0, 1, 0, 0, 0x2A, 0] ∧ 4 ≤ (4#16).toNat) := by
  decide

theorem witness_LenBiasFourReturnsThePayloadWhole :
    encodeHeader 1 2 42 none = some [0x20, 1, 0, 6, 0, 0, 0x2A, 0] ∧ ([0xAA, 0xBB] : List Byte).length = (2#16).toNat := by
  decide

theorem witness_CuttingALongDatagramChangesNoResult :
    65536 ≤ (List.replicate 65536 (0 : Byte)).length ∧ 65536 ≤ (List.replicate 65537 (0 : Byte)).length := by
  rw [List.length_replicate, List.length_replicate]
  decide

theorem witness_LoadStoresOneByteInIdle : p1Idle.phase = .idle ∧ (1 : Nat) ≠ (0#16).toNat ∧ p1Hdr.phase ≠ .idle := by
  decide

theorem witness_LoadOrderIsFreeAndLastLoadWins :
    Memory.wf p1Idle.buf ∧ p1Idle.phase = .idle ∧ (∃ t, exec (.load 0 1) p1Idle = .next t) ∧
      (∃ u, exec (.load 0xFFFF 2) p1Idle = .next u) ∧ (0 : BitVec 16) ≠ 0xFFFF :=
  ⟨by decide, rfl, ⟨_, rfl⟩, ⟨_, rfl⟩, by decide⟩

theorem witness_SetlenSetsDlenUpToTheCapacity :
    (p1Idle.phase = .idle ∧ (65536 : PortData).toNat ≤ 65536) ∧ p1Hdr.phase ≠ .idle ∧ 65537 ≤ (65537 : PortData).toNat := by
  decide

theorem witness_StartOpensARunInIdle :
    (5 : PortData).extractLsb' 0 2 = 1 ∧ p1Idle.phase = .idle ∧ p1Idle.Inv ∧ p1Ies.phase ≠ .idle :=
  ⟨by decide, rfl, p1Idle_inv, by decide⟩

theorem witness_NextReleasesThePresentedRecord :
    (6 : PortData).extractLsb' 0 2 = 2 ∧ p1Record.ieValid = true ∧ p1Record.Inv ∧ p1Ies.ieValid = false :=
  ⟨by decide, rfl, p1Record_inv, rfl⟩

theorem witness_ClearIsResetButForBufDlenProto : (0xFFFFFFFFFFFFFFFF : PortData).extractLsb' 0 2 = 3 := by decide

theorem witness_NopDoesNothing : (0xFFFFFFFFFFFFFFFC : PortData).extractLsb' 0 2 = 0 := by decide

theorem witness_RdregReturnsTheRegisterZeroExtended :
    (0x05 ≤ 5 ∧ 5 ≤ 0x07) ∧ (0x05 ≤ 7 ∧ 7 ≤ 0x07) ∧ 0x15 ≤ 0x15 := by decide

theorem witness_RdbufReturnsTheByte :
    p1Idle.buf.cell? (16#16).toNat = some 0x80 ∧ p1Idle.buf.cell? (17#16).toNat = none := by decide

theorem witness_OtherRegisterWritesAreRejected : (1 : Nat) ≠ 0x00 ∧ (1 : Nat) ≠ 0x02 ∧ (3 : Nat) ≠ 0x00 ∧ (3 : Nat) ≠ 0x02 := by
  decide

theorem witness_RejectedAccessChangesProtoAlone :
    accessRejected p1Hdr (.bufWrite 0 0x24) ∧ accessRejected p1Ies (.regWrite 0x00 1) ∧
    accessRejected p1Done (.regWrite 0x00 2) ∧ accessRejected p1Idle (.regWrite 0x02 65537) ∧
    accessRejected p1Idle (.regWrite 0x15 0) ∧ ¬ accessRejected p1Idle (.regWrite 0x02 65536) ∧
    ¬ accessRejected p1Record (.regWrite 0x00 2) ∧
    (∃ t, step { p1Ies with proto := true } = .next t) ∧
    ({ p1Ies with proto := true } : State).schedule.head? ≠ some .reset := by
  refine ⟨?_, ?_, ?_, ?_, ?_, ?_, ?_, ⟨_, rfl⟩, ?_⟩ <;> first | decide | (simp only [accessRejected]; decide)

theorem witness_DatagramIsConstantDuringARun :
    (step p1Ies = .next p1Record ∧ p1Ies.schedule.head? ≠ some .reset ∧ p1Ies.phase ≠ .idle) ∧
    (∃ t, step { p1Hdr with schedule := [.host (.bufWrite 0 0)] } = .next t) :=
  ⟨⟨rfl, by decide, by decide⟩, ⟨_, rfl⟩⟩

theorem witness_BufByteChangesOnlyByItsLoad :
    (∃ t, step { p1Idle with schedule := [.host (.bufWrite 3 0x24)] } = .next t) ∧ p1Idle.phase = .idle ∧
    (3#16).toNat ≠ 4 := ⟨⟨_, rfl⟩, rfl, by decide⟩

theorem witness_OffMovesForwardInThreeWays :
    (p1Hdr.Inv ∧ step p1Hdr = .next p1Ies ∧ p1Ies.phase ≠ .idle) ∧
    (p1Ies.Inv ∧ step p1Ies = .next p1Record ∧ p1Record.phase ≠ .idle) :=
  ⟨⟨p1Hdr_inv, rfl, by decide⟩, ⟨p1Ies_inv, rfl, by decide⟩⟩

theorem witness_EnabledParserStepStaysEnabled :
    busy p1Ies = true ∧ ¬ isClear (.regWrite 0x00 2) ∧ busy p1Hdr = true ∧ ¬ isClear (.bufWrite 0 0) := by
  refine ⟨by decide, ?_, by decide, ?_⟩ <;> (simp only [isClear]; decide)

theorem witness_EndedRunStaysEnded :
    runEnded p1Done = true ∧ runEnded h2Error = true ∧
    (∃ t, step { p1Done with schedule := [.host (.regWrite 0x00 1)] } = .next t) ∧ ¬ isClear (.regWrite 0x00 1) := by
  refine ⟨by decide, by decide, ⟨_, rfl⟩, ?_⟩
  simp only [isClear]
  decide

/-- P1 with a byte loaded above `DLEN`, and a rejected access behind it. -/
def p1HdrMore : State := { started (p1Bytes ++ [0x99]) with dlen := 17, proto := true }

theorem witness_RunDependsOnTheDatagramAlone :
    p1Hdr.Inv ∧ p1Hdr.phase = .hdr ∧ p1HdrMore.Inv ∧ p1HdrMore.phase = .hdr ∧ datagram p1Hdr = datagram p1HdrMore ∧
    p1Hdr.buf ≠ p1HdrMore.buf ∧ (∃ t, afterTurn .parser p1Hdr = some t) ∧ ∃ u, afterTurn .parser p1HdrMore = some u := by
  exact ⟨p1Hdr_inv, rfl, by constructor <;> decide, rfl, by decide, by decide, ⟨_, rfl⟩, ⟨_, rfl⟩⟩

theorem witness_ClearThenStartRunsTheSameAgain :
    p1Hdr.Inv ∧ p1Hdr.phase = .hdr ∧ afterTurn .parser p1Hdr = some p1Ies ∧ (takeAllRecords 0 p1Ies).2 = p1Ies ∧
    afterTurn (.host (.regWrite 0x00 3)) p1Ies = some p1Idle ∧
    afterTurn (.host (.regWrite 0x00 1)) p1Idle = some p1Hdr :=
  ⟨p1Hdr_inv, rfl, by decide, rfl, by decide, by decide⟩

theorem witness_InterleavedAccessesDoNotDisturbARun :
    (p1Ies.phase ≠ .idle ∧ ¬ isClear (.bufWrite 0 0x24) ∧
      ∃ t, step { p1Ies with schedule := [.host (.bufWrite 0 0x24)] } = .next t) ∧
    (runView p1Ies = runView { p1Ies with proto := true } ∧ parserTurn p1Ies = .next p1Record) :=
  ⟨⟨by decide, by simp only [isClear]; decide, ⟨_, rfl⟩⟩, ⟨rfl, rfl⟩⟩

theorem witness_ProtoDecidesNothing :
    step { p1Ies with proto := false } = .next p1Record ∧ p1Ies.schedule.head? ≠ some .reset ∧
    (∃ t, step { p1Ies with schedule := [.reset], proto := false } = .next t) := ⟨rfl, by decide, ⟨_, rfl⟩⟩

theorem witness_RecordStepNotEnabledDoesNotHappen : p1Ies.phase ≠ .hdr ∧ p1Record.ieValid = true ∧ p1Hdr.phase ≠ .ies := by
  decide

theorem witness_EmptyScheduleLetsTheParserMove :
    p1Ies.schedule = [] ∧ busy p1Ies = true ∧ p1Done.schedule = [] ∧ busy p1Done = false := by decide

end Sys2Proof.Tests
end

