-- ==== Sys2Proof/Proofs/BigEndian.lean ====
section
/-! PROOF. O5: fields as the sums of their bytes (R10, R62), and the bytes of a field by division (R63). Everything
follows from `append_byte_toNat`: a byte appended behind a field scales the field by 256 and adds itself. -/

namespace Sys2Proof

theorem be16_toNat (b1 b0 : Byte) : (be16 b1 b0).toNat = b1.toNat * 256 + b0.toNat :=
  append_byte_toNat b1 b0

theorem be24_toNat (b2 b1 b0 : Byte) :
    (be24 b2 b1 b0).toNat = b2.toNat * 65536 + b1.toNat * 256 + b0.toNat := by
  have horner : (be24 b2 b1 b0).toNat = (b2.toNat * 256 + b1.toNat) * 256 + b0.toNat := by
    simp only [be24, append_byte_toNat]
  rw [horner]
  ring

theorem be64_toNat (b7 b6 b5 b4 b3 b2 b1 b0 : Byte) :
    (be64 b7 b6 b5 b4 b3 b2 b1 b0).toNat = b7.toNat * 256 ^ 7 + b6.toNat * 256 ^ 6 + b5.toNat * 256 ^ 5
      + b4.toNat * 256 ^ 4 + b3.toNat * 256 ^ 3 + b2.toNat * 256 ^ 2 + b1.toNat * 256 + b0.toNat := by
  have horner : (be64 b7 b6 b5 b4 b3 b2 b1 b0).toNat =
      ((((((b7.toNat * 256 + b6.toNat) * 256 + b5.toNat) * 256 + b4.toNat) * 256 + b3.toNat) * 256
        + b2.toNat) * 256 + b1.toNat) * 256 + b0.toNat := by
    simp only [be64, append_byte_toNat]
  rw [horner]
  ring

/-- Byte `k` of a field in arithmetic (R63), for a field of any width: beyond the field's end both sides are 0. -/
theorem fieldByte_toNat {w : Nat} (k : Nat) (v : BitVec w) :
    (fieldByte k v).toNat = v.toNat / 256 ^ k % 256 :=
  calc (v.extractLsb' (8 * k) 8).toNat
      _ = v.toNat / 2 ^ (8 * k) % 256 := by rw [BitVec.extractLsb'_toNat, Nat.shiftRight_eq_div_pow]
      _ = v.toNat / 256 ^ k % 256 := by rw [Nat.pow_mul]

/-- Settles O5, by the sum of each field's bytes and the quotient that each byte of a field is. -/
theorem fieldsAreBigEndian : Obligations.FieldsAreBigEndian :=
  ⟨be16_toNat, be24_toNat, be64_toNat, fun _ k v => fieldByte_toNat k v⟩

end Sys2Proof
end

section
/-! PROOF. O3 and O11: the invariant of R52 holds right after reset and every step keeps it. What a turn can do is
`step_effect`; here stands, for each operation that a turn applies, that it keeps the invariant. -/

namespace Sys2Proof.Machine

/-! ### States before the header: IDLE and HDR -/

/-- R52(b): every register but `BUF`, `DLEN`, `PHASE` and `PROTO` reads its reset value. -/
abbrev resultsClear (s : State) : Prop :=
  s.off = 0 ∧ s.endOff = 0 ∧ s.hValid = false ∧ headerClear s ∧ s.ieValid = false ∧ recordClear s ∧ s.ieCount = 0 ∧
    s.err = .none ∧ s.clamp = false

/-- In IDLE and HDR the invariant asks no more than canonical bytes, a legal `DLEN` and clear results. -/
theorem inv_of_resultsClear {s : State} (hb : s.buf.wf) (hd : s.dlen.toNat ≤ 65536)
    (hp : s.phase = .idle ∨ s.phase = .hdr) (hc : resultsClear s) : s.Inv := by
  have ⟨_, _, hHeader, hFields, hRecord, hIe, _⟩ := hc
  have ⟨_, hS, _, _, hSeid, _⟩ := hFields
  exact {
    bufWf := hb
    dlenLe := hd
    beforeHeader := fun _ => hc
    inPayload := by rcases hp with hp | hp <;> simp [hp]
    inError := by rcases hp with hp | hp <;> simp [hp]
    presented := by simp [hRecord]
    ended := by rcases hp with hp | hp <;> simp [hp]
    noHeader := fun _ => hFields
    headerLen := by simp [hHeader]
    noSession := fun _ => hSeid
    noRecord := fun _ => hIe
    counted := by rcases hp with hp | hp <;> simp [hp] }

theorem reset_resultsClear : resultsClear State.reset := by decide

theorem resetEvent_inv (s : State) : (resetEvent s).Inv :=
  inv_of_resultsClear (by simp [Memory.wf]) (by simp) (.inl rfl) reset_resultsClear

theorem clearRun_inv {s : State} (h : s.Inv) : (clearRun s).Inv :=
  inv_of_resultsClear h.bufWf h.dlenLe (.inl rfl) reset_resultsClear

theorem beginRun_inv {s : State} (h : s.Inv) (hp : s.phase = .idle) : (beginRun s).Inv :=
  inv_of_resultsClear h.bufWf h.dlenLe (.inr rfl) (h.beforeHeader (.inl hp))

theorem memWrite_inv {s : State} (a : BitVec 16) (b : Byte) (h : s.Inv) (hp : s.phase = .idle) : (memWrite a b s).Inv :=
  inv_of_resultsClear (put_wf b h.bufWf a.isLt) h.dlenLe (.inl hp) (h.beforeHeader (.inl hp))

theorem setDlen_inv {s : State} {n : Nat} (h : s.Inv) (hp : s.phase = .idle) (hn : n ≤ 65536) : (setDlen n s).Inv :=
  inv_of_resultsClear h.bufWf (by simp; omega) (.inl hp) (h.beforeHeader (.inl hp))

/-! ### Operations that touch only what no rule of a run depends on -/

/-- The invariant speaks of nothing that `runView` leaves out: `PROTO`, the ports' answers and the turns to come. -/
theorem inv_runView (s : State) : (runView s).Inv ↔ s.Inv :=
  ⟨fun ⟨b, d, bh, ip, er, pr, en, nh, hl, ns, nr, ct⟩ => ⟨b, d, bh, ip, er, pr, en, nh, hl, ns, nr, ct⟩,
   fun ⟨b, d, bh, ip, er, pr, en, nh, hl, ns, nr, ct⟩ => ⟨b, d, bh, ip, er, pr, en, nh, hl, ns, nr, ct⟩⟩

theorem inv_of_runView_eq {s t : State} (h : s.Inv) (e : runView t = runView s) : t.Inv := by
  rwa [← inv_runView, e, inv_runView]

/-! ### The header step -/

/-- A datagram too short for its header leaves no field behind (R112, R25). -/
theorem writeHeader_invalid_inv {s : State} {c : ErrCode} (h : s.Inv) (hp : s.phase = .hdr) (hn : c ≠ .none)
    (hb : c ≠ .badLen) : (writeHeader (.invalid c) s).Inv := by
  obtain ⟨_, _, _, _, hv, hr, hc, _⟩ := h.beforeHeader (.inr hp)
  exact {
    bufWf := h.bufWf
    dlenLe := h.dlenLe
    beforeHeader := by simp [writeHeader]
    inPayload := by simp [writeHeader]
    inError := by simp [writeHeader, hn, hb, hv, hc]
    presented := by simp [writeHeader, hv]
    ended := by simp [writeHeader]
    noHeader := fun _ => ⟨rfl, rfl, rfl, rfl, rfl, rfl, rfl, rfl⟩
    headerLen := by simp [writeHeader]
    noSession := fun _ => rfl
    noRecord := fun _ => hr
    counted := by simp [writeHeader] }

theorem HeaderFields.Shaped.hHlen_toNat {f : HeaderFields} (hf : f.Shaped) :
    (BitVec.ofNat 5 f.hlen).toNat = 8 + 8 * f.s.toNat := by
  rw [hf.hlen, hdrLen_eq]
  cases f.s <;> rfl

theorem HeaderFields.Shaped.seid_getD {f : HeaderFields} (hf : f.Shaped) (hs : f.s = false) : f.seid.getD 0 = 0 := by
  rw [hf.seid hs]
  rfl

/-- A length smaller than the header keeps the fields and opens no payload (R112). -/
theorem writeHeader_badLength_inv {s : State} {f : HeaderFields} (h : s.Inv) (hp : s.phase = .hdr) (hf : f.Shaped) :
    (writeHeader (.badLength f) s).Inv := by
  obtain ⟨_, _, _, _, hv, hr, hc, _⟩ := h.beforeHeader (.inr hp)
  exact {
    bufWf := h.bufWf
    dlenLe := h.dlenLe
    beforeHeader := by simp [writeHeader]
    inPayload := by simp [writeHeader]
    inError := by simp [writeHeader, hv, hc]
    presented := by simp [writeHeader, hv]
    ended := by simp [writeHeader]
    noHeader := by simp [writeHeader]
    headerLen := fun _ => hf.hHlen_toNat
    noSession := hf.seid_getD
    noRecord := fun _ => hr
    counted := by simp [writeHeader] }

/-- A valid header opens the payload from its own end to `END` (R112, R164). -/
theorem writeHeader_ok_extracting {s : State} {f : HeaderFields} (hf : f.Shaped) (hfit : f.hlen ≤ s.dlen.toNat)
    (hlen : f.hlen ≤ f.length.toNat) :
    extracting
      (writeHeader (.ok f f.hlen (min f.length.toNat s.dlen.toNat) (decide (s.dlen.toNat < f.length.toNat))) s) := by
  have hh : f.hlen = 8 + 8 * f.s.toNat := by rw [hf.hlen, hdrLen_eq]
  have hb : f.s.toNat ≤ 1 := Bool.toNat_le f.s
  have hw := f.length.isLt
  refine ⟨rfl, rfl, hf.hHlen_toNat, ?_, ?_, ?_, ?_, ?_, ?_, rfl⟩ <;>
    simp only [writeHeader, openPayload_hHlen, openPayload_dlen, openPayload_hLen, openPayload_endOff, openPayload_pLen,
      openPayload_off, writeFields_hHlen, writeFields_dlen, writeFields_hLen, payloadLen_eq, BitVec.toNat_ofNat] <;>
    omega

theorem writeHeader_ok_inv {s : State} {f : HeaderFields} (h : s.Inv) (hp : s.phase = .hdr) (hf : f.Shaped)
    (hfit : f.hlen ≤ s.dlen.toNat) (hlen : f.hlen ≤ f.length.toNat) :
    (writeHeader (.ok f f.hlen (min f.length.toNat s.dlen.toNat) (decide (s.dlen.toNat < f.length.toNat))) s).Inv := by
  obtain ⟨_, _, _, _, hv, hr, _⟩ := h.beforeHeader (.inr hp)
  exact {
    bufWf := h.bufWf
    dlenLe := h.dlenLe
    beforeHeader := by simp [writeHeader]
    inPayload := fun _ => writeHeader_ok_extracting hf hfit hlen
    inError := by simp [writeHeader]
    presented := by simp [writeHeader, hv]
    ended := by simp [writeHeader]
    noHeader := by simp [writeHeader]
    headerLen := fun _ => hf.hHlen_toNat
    noSession := hf.seid_getD
    noRecord := fun _ => hr
    counted := by simp [writeHeader] }

theorem headerStep_inv {s : State} {f : HeaderFields} (h : s.Inv) (hp : s.phase = .hdr) (hf : f.Shaped) :
    (writeHeader (judgeHeader Config.lenBias s.dlen.toNat f) s).Inv := by
  rcases judgeHeader_cases Config.lenBias s.dlen.toNat f with
    ⟨_, e⟩ | ⟨_, _, _, e⟩ | ⟨_, _, _, e⟩ | ⟨h8, h16, hlen, e⟩ <;> rw [e]
  · exact writeHeader_invalid_inv h hp nofun nofun
  · exact writeHeader_invalid_inv h hp nofun nofun
  · exact writeHeader_badLength_inv h hp hf
  · have hfit : f.hlen ≤ s.dlen.toNat := by
      rw [hf.hlen]
      exact hdrLen_le_of_fits (short8_false_iff.mpr h8) (short16_false_iff.mpr h16)
    exact writeHeader_ok_inv h hp hf hfit hlen

/-! ### The IE step and `NEXT` -/

/-- `OFF` moves behind the emitted record and stays at or before `END` (R132, R164). -/
theorem emitRecord_off_toNat {s : State} {l : BitVec 16} (t : BitVec 16) (i : BitVec 4)
    (h5 : 5 ≤ s.endOff.toNat - s.off.toNat) (hl : l.toNat ≤ s.endOff.toNat - s.off.toNat - 5) :
    (emitRecord t l i s).off.toNat = s.off.toNat + 5 + l.toNat := by
  have hw := s.endOff.isLt
  simp only [emitRecord_off, nextOff_eq, BitVec.toNat_ofNat]
  omega

theorem emitRecord_ieVoff_toNat {s : State} (t l : BitVec 16) (i : BitVec 4) (h5 : 5 ≤ s.endOff.toNat - s.off.toNat) :
    (emitRecord t l i s).ieVoff.toNat = s.off.toNat + 5 := by
  have hw := s.endOff.isLt
  simp only [emitRecord_ieVoff, valueOff_eq, BitVec.toNat_ofNat]
  omega

/-- R167 keeps `IE_COUNT` far below its width, so that it never wraps. -/
theorem emitRecord_ieCount_toNat {s : State} (t l : BitVec 16) (i : BitVec 4) (h : s.Inv) (hp : s.phase = .ies) :
    (emitRecord t l i s).ieCount.toNat = s.ieCount.toNat + 1 := by
  have hc := h.counted (.inl hp)
  have hw := s.off.isLt
  rw [emitRecord_ieCount, BitVec.toNat_add, Nat.mod_eq_of_lt]
  · rfl
  · change s.ieCount.toNat + 1 < _
    omega

theorem emitRecord_inv {s : State} {l : BitVec 16} (t : BitVec 16) (i : BitVec 4) (h : s.Inv) (hp : s.phase = .ies)
    (h5 : 5 ≤ s.endOff.toNat - s.off.toNat) (hl : l.toNat ≤ s.endOff.toNat - s.off.toNat - 5) :
    (emitRecord t l i s).Inv := by
  obtain ⟨hv, he, hh, hd, hL, hE, hP, hlo, hhi, hcl⟩ := h.inPayload (.inl hp)
  have hoff := emitRecord_off_toNat t i h5 hl
  have hvoff := emitRecord_ieVoff_toNat t l i h5
  have hcount := emitRecord_ieCount_toNat t l i h hp
  have hc := h.counted (.inl hp)
  exact {
    bufWf := h.bufWf
    dlenLe := h.dlenLe
    beforeHeader := by simp [hp]
    inPayload := fun _ => ⟨hv, he, hh, hd, hL, hE, hP, by rw [hoff, emitRecord_hHlen]; omega,
      by rw [hoff, emitRecord_endOff]; omega, hcl⟩
    inError := by simp [hp]
    presented := fun _ => ⟨hp, by rw [hoff, hvoff, emitRecord_ieLen], by rw [hvoff, emitRecord_hHlen]; omega, by omega⟩
    ended := by simp [hp]
    noHeader := h.noHeader
    headerLen := h.headerLen
    noSession := h.noSession
    noRecord := nofun
    counted := fun _ => by rw [hoff, hcount, emitRecord_hHlen]; omega }

/-- Extraction stops only where no whole record is left (R134, R135), which is R52(f). -/
theorem stopExtraction_inv {s : State} (h : s.Inv) (hp : s.phase = .ies) (hv : s.ieValid = false)
    (hend : s.endOff.toNat - s.off.toNat < 5 ∨ s.endOff.toNat - s.off.toNat - 5 <
      (be16 (bufByte s (s.off.toNat + 2)) (bufByte s (s.off.toNat + 3))).toNat) : (stopExtraction s).Inv where
  bufWf := h.bufWf
  dlenLe := h.dlenLe
  beforeHeader := by simp
  inPayload _ := h.inPayload (.inl hp)
  inError := nofun
  presented := by simp [hv]
  ended _ := ⟨hv, hend⟩
  noHeader := h.noHeader
  headerLen := h.headerLen
  noSession := h.noSession
  noRecord := h.noRecord
  counted _ := h.counted (.inl hp)

/-- `NEXT` takes the presented record down; the phase is IES, as R52(e) says. -/
theorem takeRecord_inv {s : State} (h : s.Inv) (hv : s.ieValid = true) : (takeRecord s).Inv := by
  obtain ⟨hp, _⟩ := h.presented hv
  exact {
    bufWf := h.bufWf
    dlenLe := h.dlenLe
    beforeHeader := by simp [hp]
    inPayload := h.inPayload
    inError := by simp [hp]
    presented := nofun
    ended := by simp [hp]
    noHeader := h.noHeader
    headerLen := h.headerLen
    noSession := h.noSession
    noRecord := fun _ => ⟨rfl, rfl, rfl, rfl⟩
    counted := h.counted }

/-! ### Turns and steps -/

theorem ParserEffect.inv {s t : State} (e : ParserEffect s t) (h : s.Inv) : t.Inv := by
  cases e with
  | none => exact h
  | header f hp hf => exact headerStep_inv h hp hf
  | emit b4 l t hp _ h5 hl => exact emitRecord_inv t (instanceOf b4) h hp h5 hl
  | stop hp hv hend => exact stopExtraction_inv h hp hv (hend.imp_right fun ⟨_, _, hlt⟩ => hlt)

theorem HostEffect.inv {s t : State} {a : HostAccess} (e : HostEffect s a t) (h : s.Inv) : t.Inv := by
  cases e with
  | reject => exact inv_of_runView_eq h rfl
  | nop => exact h
  | start _ hp => exact beginRun_inv h hp
  | take _ hv => exact takeRecord_inv h hv
  | clear => exact clearRun_inv h
  | load hp => exact memWrite_inv _ _ h hp
  | setlen hp hn => exact setDlen_inv h hp hn
  | readRegister => exact inv_of_runView_eq h rfl
  | readBuffer => exact inv_of_runView_eq h rfl

theorem TurnEffect.inv {s t : State} {u : Turn} (e : TurnEffect s u t) (h : s.Inv) : t.Inv := by
  cases e with
  | parser e => exact e.inv h
  | host e => exact e.inv h
  | label => exact h
  | reset => exact resetEvent_inv s

theorem step_inv {s t : State} (h : s.Inv) (hs : step s = .next t) : t.Inv := by
  rcases step_effect hs with ⟨_, e⟩ | ⟨u, rest, _, e⟩
  · exact e.inv h
  · exact e.inv (inv_of_runView_eq h rfl)

/-- Settles O3: the reset state is in IDLE, holds no loaded byte and its results are clear. -/
theorem resetMeetsTheInvariant : Obligations.ResetMeetsTheInvariant :=
  inv_of_resultsClear (by decide) (by decide) (.inl rfl) reset_resultsClear

/-- Settles O11, by what a step can do: each operation that a turn applies keeps the invariant. -/
theorem everyStepKeepsTheInvariant : Obligations.EveryStepKeepsTheInvariant :=
  fun _ _ => step_inv

end Sys2Proof.Machine
end

section
/-! PROOF. O4: `STATUS` as the sum of its fields (R44). A field that stands behind others scales them by two to its own
width and adds itself. -/

namespace Sys2Proof.Machine

theorem toNat_append_eq_mul_add {m n : Nat} (x : BitVec m) (y : BitVec n) :
    (x ++ y).toNat = x.toNat * 2 ^ n + y.toNat := by
  rw [BitVec.toNat_append, ← Nat.shiftLeft_add_eq_or_of_lt y.isLt, Nat.shiftLeft_eq]

theorem status_toNat (s : State) :
    (status s).toNat = s.phase.code.toNat + 8 * s.ieValid.toNat + 16 * s.hValid.toNat + 32 * s.err.code.toNat
      + 256 * s.clamp.toNat + 512 * s.proto.toNat + 1024 * (busy s).toNat := by
  simp only [status, toNat_append_eq_mul_add, BitVec.toNat_ofBool, BitVec.toNat_ofNat]
  omega

theorem busy_iff (s : State) : busy s = true ↔ s.phase = .hdr ∨ (s.phase = .ies ∧ s.ieValid = false) := by
  simp [busy]

theorem outDone_iff (s : State) : outDone s = true ↔ s.phase = .done := decide_eq_true_iff

theorem outError_iff (s : State) : outError s = true ↔ s.phase = .error := decide_eq_true_iff

/-- Settles O4, by the sum of `STATUS`'s fields and the equation of each view. -/
theorem statusBitsAndLevelOutputs : Obligations.StatusBitsAndLevelOutputs :=
  ⟨fun s => ⟨status_toNat s, busy_iff s, rfl, outDone_iff s, outError_iff s⟩, by decide,
    ⟨rfl, rfl, rfl, rfl, rfl⟩, ⟨rfl, rfl, rfl, rfl⟩⟩

end Sys2Proof.Machine
end

section
/-! PROOF. O55: `PROTO` decides nothing (R42, R259). A turn is `ProtoBlind` when setting `PROTO` before it and setting it
after it come to the same; that is so of every turn but a reset event and a read of `STATUS`. -/

namespace Sys2Proof.Machine

/-- Setting `PROTO`, which is all that `rejectAccess` does (R190), before `f` or after it gives the same next state. -/
def ProtoBlind (f : State → Host.Outcome State Fault Refusal) : Prop :=
  ∀ s t : State, f s = .next t → f (rejectAccess s) = .next (rejectAccess t)

theorem protoBlind_next {g : State → State} (hg : ∀ s, g (rejectAccess s) = rejectAccess (g s)) :
    ProtoBlind fun s => .next (g s) := by
  intro s t h
  cases h
  exact congrArg _ (hg s)

theorem protoBlind_ite {c : State → Prop} [∀ s, Decidable (c s)] {f g : State → Host.Outcome State Fault Refusal}
    (hc : ∀ s, c (rejectAccess s) ↔ c s) (hf : ProtoBlind f) (hg : ProtoBlind g) :
    ProtoBlind fun s => if c s then f s else g s := by
  intro s t h
  by_cases hs : c s
  · exact (if_pos ((hc s).mpr hs)).trans (hf s t ((if_pos hs).symm.trans h))
  · exact (if_neg (mt (hc s).mp hs)).trans (hg s t ((if_neg hs).symm.trans h))

/-! ### Instructions -/

theorem writeHeader_rejectAccess (r : HeaderResult) (s : State) :
    writeHeader r (rejectAccess s) = rejectAccess (writeHeader r s) := by
  cases r <;> rfl

/-- Every register but `STATUS` reads the same whatever `PROTO` is (R44, R46). -/
theorem readRegister_rejectAccess (s : State) {k : Nat} (hk : k ≠ 0x01) :
    readRegister (rejectAccess s) k = readRegister s k := by
  unfold readRegister
  split
  case h_1 => exact absurd rfl hk
  all_goals rfl

theorem protoBlind_headerStep (f : HeaderFields) : ProtoBlind (headerStep f) :=
  protoBlind_ite (fun _ => Iff.rfl) (protoBlind_next fun _ => writeHeader_rejectAccess ..) (protoBlind_next fun _ => rfl)

theorem protoBlind_execIe (type length : BitVec 16) (instByte : Byte) : ProtoBlind (execIe type length instByte) :=
  have stop : ProtoBlind fun s => .next (stopExtraction s) := protoBlind_next fun _ => rfl
  have emit : ProtoBlind fun s => .next (emitRecord type length (instanceOf instByte) s) := protoBlind_next fun _ => rfl
  protoBlind_ite (fun _ => Iff.rfl)
    (protoBlind_ite (fun _ => Iff.rfl) (protoBlind_ite (fun _ => Iff.rfl) emit stop) stop)
    (protoBlind_next fun _ => rfl)

theorem protoBlind_exec {i : Instr} (hi : i ≠ .rdreg 0x01) : ProtoBlind (exec i) := by
  have reject : ProtoBlind fun s => .next (rejectAccess s) := protoBlind_next fun _ => rfl
  have label : ProtoBlind fun s => .next (selectNothing s) := protoBlind_next fun _ => rfl
  cases i with
  | hdr8 flags mtype length seq spare => exact protoBlind_headerStep (fieldsOfHdr8 flags mtype length seq)
  | hdr16 flags mtype length seid seq spare => exact protoBlind_headerStep (fieldsOfHdr16 flags mtype length seid seq)
  | ie type length instByte => exact protoBlind_execIe type length instByte
  | nop v => exact protoBlind_next fun _ => rfl
  | start v => exact protoBlind_ite (fun _ => Iff.rfl) (protoBlind_next fun _ => rfl) reject
  | next v => exact protoBlind_ite (fun _ => Iff.rfl) (protoBlind_next fun _ => rfl) reject
  | clear v => exact protoBlind_next fun _ => rfl
  | load a b => exact protoBlind_ite (fun _ => Iff.rfl) (protoBlind_next fun _ => rfl) reject
  | setlen n => exact protoBlind_ite (fun _ => Iff.rfl) (protoBlind_next fun _ => rfl) reject
  | rdreg k =>
    have hk : k ≠ 0x01 := fun e => hi (congrArg Instr.rdreg e)
    exact protoBlind_next fun s => congrArg (answerRegister · (rejectAccess s)) (readRegister_rejectAccess s hk)
  | rdbuf a => exact protoBlind_next fun _ => rfl
  | msgtype1 => exact label
  | msgtype2 => exact label
  | msgtype50 => exact label
  | msgtype51 => exact label
  | ietype1 => exact label
  | ietype3 => exact label
  | ietype19 => exact label
  | ietype60 => exact label
  | ietype96 => exact label
  | causeAccepted => exact label

/-! ### The parser's turn -/

theorem memRead_rejectAccess (s : State) (a n : Nat) : memRead (rejectAccess s) a n = memRead s a n := by
  simp only [memRead, rejectAccess_dlen, bufBytes_congr (rejectAccess_buf s) (rejectAccess_epoch s)]

theorem fetchHeader_rejectAccess (s : State) : fetchHeader (rejectAccess s) = fetchHeader s := by
  rw [fetchHeader, memRead_rejectAccess]
  rfl

theorem fetchElement_rejectAccess (s : State) : fetchElement (rejectAccess s) = fetchElement s := by
  rw [fetchElement, memRead_rejectAccess]
  rfl

theorem parserFetch_rejectAccess (s : State) : parserFetch (rejectAccess s) = parserFetch s := by
  rw [parserFetch, fetchHeader_rejectAccess, fetchElement_rejectAccess]
  rfl

/-- The parser fetches headers and elements alone (R80). -/
theorem parserFetch_record {s : State} {e : Encoded} (h : parserFetch s = .record e) :
    (∃ bs, e = .header bs) ∨ ∃ bs, e = .element bs := by
  simp only [parserFetch, fetchHeader, fetchElement] at h
  repeat' split at h
  all_goals cases h
  · exact .inl ⟨_, rfl⟩
  · exact .inr ⟨_, rfl⟩

theorem decodeHeaderRecord_ne_rdreg (bs : List Byte) (k : Nat) : decodeHeaderRecord bs ≠ .ok (.rdreg k) := by
  unfold decodeHeaderRecord
  repeat' split
  all_goals nofun

theorem decodeElementRecord_ne_rdreg (bs : List Byte) (k : Nat) : decodeElementRecord bs ≠ .ok (.rdreg k) := by
  unfold decodeElementRecord
  split <;> nofun

/-- No record that the parser fetches is a read of a register. -/
theorem decode_parserFetch_ne_rdreg {s : State} {e : Encoded} (h : parserFetch s = .record e) (k : Nat) :
    decode e ≠ .ok (.rdreg k) := by
  rcases parserFetch_record h with ⟨bs, rfl⟩ | ⟨bs, rfl⟩
  · exact decodeHeaderRecord_ne_rdreg bs k
  · exact decodeElementRecord_ne_rdreg bs k

theorem protoBlind_parserTurn : ProtoBlind parserTurn := by
  intro s t h
  unfold parserTurn at h ⊢
  rw [parserFetch_rejectAccess]
  generalize hf : parserFetch s = r at h ⊢
  cases r with
  | notEnabled => cases h; rfl
  | short c => cases h; rfl
  | noHeader => cases h; rfl
  | undefined => cases h
  | record e =>
    have hne := decode_parserFetch_ne_rdreg hf 0x01
    dsimp only at h ⊢
    generalize decode e = d at h hne ⊢
    cases d with
    | ok i => exact protoBlind_exec (fun hi => hne (congrArg Except.ok hi)) s t h
    | error r => cases h

/-! ### Turns and steps -/

theorem decodeCommand_ne_rdreg (v : PortData) (k : Nat) : decodeCommand v ≠ .rdreg k := by
  unfold decodeCommand
  repeat' split
  all_goals nofun

theorem eq_regRead_of_decode {a : HostAccess} {k : Nat} (h : decode (.access a) = .ok (.rdreg k)) : a = .regRead k := by
  cases a with
  | bufWrite a b => cases h
  | bufRead a => cases h
  | regRead j => cases h; rfl
  | regWrite j v =>
    simp only [decode, decodeAccess] at h
    repeat' split at h
    · exact absurd (Except.ok.inj h) (decodeCommand_ne_rdreg v k)
    · cases h
    · cases h

theorem protoBlind_hostTurn {a : HostAccess} (ha : a ≠ .regRead 0x01) : ProtoBlind (hostTurn a) := by
  intro s t h
  have hne : decode (.access a) ≠ .ok (.rdreg 0x01) := mt eq_regRead_of_decode ha
  unfold hostTurn at h ⊢
  generalize decode (.access a) = d at h hne ⊢
  cases d with
  | ok i => exact protoBlind_exec (fun hi => hne (congrArg Except.ok hi)) s t h
  | error r => cases h; rfl

theorem protoBlind_takeTurn {u : Turn} (hr : u ≠ .reset) (hu : u ≠ .host (.regRead 0x01)) : ProtoBlind (takeTurn u) := by
  cases u with
  | parser => exact protoBlind_parserTurn
  | host a => exact protoBlind_hostTurn fun e => hu (congrArg Turn.host e)
  | label f v =>
    intro s t h
    rw [takeTurn, labelTurn_eq] at h ⊢
    cases h
    rfl
  | reset => exact absurd rfl hr

theorem step_nil {s : State} (h : s.schedule = []) : step s = parserTurn s := by
  rw [step, nextTurn, h]

theorem step_cons {s : State} {u : Turn} {rest : List Turn} (h : s.schedule = u :: rest) :
    step s = takeTurn u { s with schedule := rest } := by
  rw [step, nextTurn, h]

theorem step_rejectAccess {s t : State} (hr : s.schedule.head? ≠ some .reset)
    (hu : s.schedule.head? ≠ some (.host (.regRead 0x01))) (h : step s = .next t) :
    step (rejectAccess s) = .next (rejectAccess t) := by
  cases hs : s.schedule with
  | nil =>
    rw [step_nil hs] at h
    exact (step_nil (s := rejectAccess s) hs).trans (protoBlind_parserTurn s t h)
  | cons u rest =>
    rw [hs, List.head?_cons, ne_eq, Option.some.injEq] at hr hu
    rw [step_cons hs] at h
    exact (step_cons (s := rejectAccess s) hs).trans (protoBlind_takeTurn hr hu _ t h)

/-- A reset event clears `PROTO` with all else (R42, R271). -/
theorem step_rejectAccess_of_reset {s t : State} (hr : s.schedule.head? = some .reset) (h : step s = .next t) :
    step (rejectAccess s) = .next t ∧ t.proto = false := by
  obtain ⟨rest, hs⟩ := List.head?_eq_some_iff.mp hr
  rw [step_cons hs] at h
  cases h
  exact ⟨step_cons (s := rejectAccess s) hs, rfl⟩

/-- A read of `STATUS` returns `PROTO` (R44), and that is all that differs. -/
theorem step_rejectAccess_of_readStatus {s t : State} (hu : s.schedule.head? = some (.host (.regRead 0x01)))
    (h : step s = .next t) : step (rejectAccess s) =
      .next (answerRegister (readRegister (rejectAccess s) 0x01) (rejectAccess t)) := by
  obtain ⟨rest, hs⟩ := List.head?_eq_some_iff.mp hu
  rw [step_cons hs] at h
  cases h
  exact step_cons (s := rejectAccess s) hs

/-- Settles O55, by the three kinds of turn: a reset event, a read of `STATUS`, and all others. -/
theorem protoDecidesNothing : Obligations.ProtoDecidesNothing := by
  intro s t h
  refine ⟨fun hr => step_rejectAccess_of_reset (s := { s with proto := false }) hr h, fun hr => ?_⟩
  by_cases hu : s.schedule.head? = some (.host (.regRead 0x01))
  · exact ⟨_, step_rejectAccess_of_readStatus (s := { s with proto := false }) hu h, absurd hu⟩
  · exact ⟨t.regData, step_rejectAccess (s := { s with proto := false }) hr hu h, fun _ => rfl⟩

end Sys2Proof.Machine
end

section
/-! PROOF. O47 and O48: who writes the datagram (R20, R70, R72, R74). Both rest on `step_datagram`: of all steps but
reset, `LOAD` alone writes `BUF`, `SETLEN` alone writes `DLEN`, and both do so in IDLE only. -/

namespace Sys2Proof.Machine

@[simp] theorem writeHeader_dlen (r : HeaderResult) (s : State) : (writeHeader r s).dlen = s.dlen := by cases r <;> rfl
@[simp] theorem writeHeader_buf (r : HeaderResult) (s : State) : (writeHeader r s).buf = s.buf := by cases r <;> rfl
@[simp] theorem writeHeader_epoch (r : HeaderResult) (s : State) : (writeHeader r s).epoch = s.epoch := by cases r <;> rfl

/-- What a step can do to the datagram, where `u` is the turn scheduled for it, if any. The epoch stands here because a
byte that was never loaded reads by it (R74, log entry 1). -/
inductive DatagramEffect (s : State) (u : Option Turn) (t : State) : Prop
  | same : t.dlen = s.dlen → t.buf = s.buf → t.epoch = s.epoch → DatagramEffect s u t
  | load {a : BitVec 16} {b : Byte} : u = some (.host (.bufWrite a b)) → s.phase = .idle →
      t.buf = (memWrite a b s).buf → t.epoch = s.epoch → DatagramEffect s u t
  | setlen {v : PortData} : u = some (.host (.regWrite 0x02 v)) → s.phase = .idle →
      t.buf = s.buf → t.epoch = s.epoch → DatagramEffect s u t

theorem DatagramEffect.of_withSchedule {s t : State} {u : Option Turn} {rest : List Turn}
    (e : DatagramEffect { s with schedule := rest } u t) : DatagramEffect s u t := by
  cases e with
  | same hd hb he => exact .same hd hb he
  | load hu hp hb he => exact .load hu hp hb he
  | setlen hu hp hb he => exact .setlen hu hp hb he

/-! ### Turns and steps -/

/-- The parser reads the datagram and never writes it. -/
theorem ParserEffect.datagram {s t : State} (e : ParserEffect s t) (u : Option Turn) : DatagramEffect s u t := by
  cases e with
  | none => exact .same rfl rfl rfl
  | header => exact .same (writeHeader_dlen ..) (writeHeader_buf ..) (writeHeader_epoch ..)
  | emit => exact .same rfl rfl rfl
  | stop => exact .same rfl rfl rfl

theorem HostEffect.datagram {s t : State} {a : HostAccess} (e : HostEffect s a t) :
    DatagramEffect s (some (.host a)) t := by
  cases e with
  | load hp => exact .load rfl hp rfl rfl
  | setlen hp => exact .setlen rfl hp rfl rfl
  | reject | nop | start | take | clear | readRegister | readBuffer => exact .same rfl rfl rfl

theorem TurnEffect.datagram {s t : State} {u : Turn} (e : TurnEffect s u t) (hr : u ≠ .reset) :
    DatagramEffect s (some u) t := by
  cases e with
  | parser e => exact e.datagram _
  | host e => exact e.datagram
  | label => exact .same rfl rfl rfl
  | reset => exact absurd rfl hr

theorem step_datagram {s t : State} (h : step s = .next t) (hr : s.schedule.head? ≠ some .reset) :
    DatagramEffect s s.schedule.head? t := by
  rcases step_effect h with ⟨_, e⟩ | ⟨u, rest, hs, e⟩
  · exact e.datagram _
  · rw [hs, List.head?_cons, ne_eq, Option.some.injEq] at hr
    rw [hs]
    exact (e.datagram hr).of_withSchedule

/-- `LOAD` in IDLE is accepted and writes its byte (R181). -/
theorem step_load {s : State} {a : BitVec 16} {b : Byte} {rest : List Turn}
    (hs : s.schedule = .host (.bufWrite a b) :: rest) (hp : s.phase = .idle) :
    step s = .next (memWrite a b { s with schedule := rest }) :=
  (step_cons hs).trans (if_pos hp)

/-! ### The datagram and its bytes -/

theorem DatagramEffect.eq_of_run {s t : State} {u : Option Turn} (e : DatagramEffect s u t)
    (h : s.phase ≠ .idle ∨ u = none ∨ u = some .parser) : t.dlen = s.dlen ∧ t.buf = s.buf ∧ t.epoch = s.epoch := by
  cases e with
  | same hd hb he => exact ⟨hd, hb, he⟩
  | load hu hp => simp [hu, hp] at h
  | setlen hu hp => simp [hu, hp] at h

theorem DatagramEffect.bufByte_eq {s t : State} {u : Option Turn} {x : Nat} (e : DatagramEffect s u t)
    (h : ∀ a b, u = some (.host (.bufWrite a b)) → a.toNat ≠ x) : bufByte t x = bufByte s x := by
  cases e with
  | same _ hb he => exact bufByte_congr hb he x
  | load hu _ hb he =>
    rw [bufByte_congr hb he x]
    exact bufByte_memWrite_other _ _ s (h _ _ hu).symm
  | setlen _ _ hb he => exact bufByte_congr hb he x

/-- Settles O47: outside IDLE, and by the parser, a step can do nothing to the datagram. -/
theorem datagramIsConstantDuringARun : Obligations.DatagramIsConstantDuringARun := by
  intro s t h hr hq
  have hq : s.phase ≠ .idle ∨ s.schedule.head? = none ∨ s.schedule.head? = some .parser := by
    rwa [List.head?_eq_none_iff]
  obtain ⟨hd, hb, he⟩ := (step_datagram h hr).eq_of_run hq
  exact ⟨hd, hb, bufByte_congr hb he⟩

/-- Settles O48, by what a step can do to the datagram and by `LOAD`'s own step. -/
theorem bufByteChangesOnlyByItsLoad : Obligations.BufByteChangesOnlyByItsLoad := by
  intro s t x h hr
  refine ⟨(step_datagram h hr).bufByte_eq, fun a b hu hp => ?_⟩
  obtain ⟨rest, hs⟩ := List.head?_eq_some_iff.mp hu
  rw [step_load hs hp] at h
  cases h
  exact bufByte_memWrite_same a b _

end Sys2Proof.Machine
end

section
/-! PROOF. O7, O8, O9 and O46: decoding and encoding undo each other (R80 to R99). Each kind of reading is inverted once:
a header is an `HDR8` or an `HDR16` by its session flag, a write of `CMD` a command by `v[1:0]`, a named code its value. -/

namespace Sys2Proof

/-! ### What each kind of reading gives -/

/-- What a header at the front of some bytes is read as: by the session flag the first 8 or the first 16 bytes (R80 to
R82), whatever follows them. -/
inductive HeaderReading : List Byte → Instr → Prop
  | hdr8 {f t l1 l0 q2 q1 q0 p : Byte} (rest : List Byte) : sessionBit f = false →
      HeaderReading ([f, t, l1, l0, q2, q1, q0, p] ++ rest) (.hdr8 f t (be16 l1 l0) (be24 q2 q1 q0) p)
  | hdr16 {f t l1 l0 x0 x1 x2 x3 x4 x5 x6 x7 q2 q1 q0 p : Byte} (rest : List Byte) : sessionBit f = true →
      HeaderReading ([f, t, l1, l0, x0, x1, x2, x3, x4, x5, x6, x7, q2, q1, q0, p] ++ rest)
        (.hdr16 f t (be16 l1 l0) (be64 x0 x1 x2 x3 x4 x5 x6 x7) (be24 q2 q1 q0) p)

theorem decodeHeaderRecord_eq_ok_iff {bs : List Byte} {i : Instr} :
    decodeHeaderRecord bs = .ok i ↔ HeaderReading bs i := by
  constructor
  · intro h
    unfold decodeHeaderRecord at h
    split at h
    · split at h
      next hs =>
        split at h
        · cases h; exact .hdr16 _ hs
        · cases h
      next hs => cases h; exact .hdr8 _ (Bool.eq_false_iff.mpr hs)
    · cases h
  · rintro (⟨rest, hs⟩ | ⟨rest, hs⟩)
    · exact if_neg (Bool.eq_false_iff.mp hs)
    · exact if_pos hs

theorem decodeElementRecord_eq_ok_iff {bs : List Byte} {i : Instr} :
    decodeElementRecord bs = .ok i ↔
      ∃ t1 t0 l1 l0 b rest, bs = [t1, t0, l1, l0, b] ++ rest ∧ i = .ie (be16 t1 t0) (be16 l1 l0) b := by
  constructor
  · intro h
    unfold decodeElementRecord at h
    split at h
    · cases h; exact ⟨_, _, _, _, _, _, rfl, rfl⟩
    · cases h
  · rintro ⟨t1, t0, l1, l0, b, rest, rfl, rfl⟩
    rfl

theorem decodeCommand_of_bits0 {v : PortData} (h : commandBits v = 0) : decodeCommand v = .nop v := by
  simp [decodeCommand, h]

theorem decodeCommand_of_bits1 {v : PortData} (h : commandBits v = 1) : decodeCommand v = .start v := by
  simp [decodeCommand, h]

theorem decodeCommand_of_bits2 {v : PortData} (h : commandBits v = 2) : decodeCommand v = .next v := by
  simp [decodeCommand, h]

theorem decodeCommand_of_bits3 {v : PortData} (h : commandBits v = 3) : decodeCommand v = .clear v := by
  simp [decodeCommand, h]

/-! ### Decoding undoes encoding -/

theorem decode_encode_hdr8 {flags : Byte} (mtype : Byte) (length : BitVec 16) (seq : BitVec 24) (spare : Byte)
    (h : sessionBit flags = false) :
    decode (encode (.hdr8 flags mtype length seq spare)) = .ok (.hdr8 flags mtype length seq spare) := by
  simp [encode, decode, decodeHeaderRecord, bytes16, bytes24, h, be16_fieldBytes, be24_fieldBytes]

theorem decode_encode_hdr16 {flags : Byte} (mtype : Byte) (length : BitVec 16) (seid : BitVec 64) (seq : BitVec 24)
    (spare : Byte) (h : sessionBit flags = true) :
    decode (encode (.hdr16 flags mtype length seid seq spare)) = .ok (.hdr16 flags mtype length seid seq spare) := by
  simp [encode, decode, decodeHeaderRecord, bytes16, bytes64, bytes24, h, be16_fieldBytes, be64_fieldBytes,
    be24_fieldBytes]

theorem decode_encode_ie (type length : BitVec 16) (instByte : Byte) :
    decode (encode (.ie type length instByte)) = .ok (.ie type length instByte) := by
  simp [encode, decode, decodeElementRecord, bytes16, be16_fieldBytes]

theorem decode_encode {i : Instr} (h : i.wf = true) : decode (encode i) = .ok i := by
  cases i with
  | hdr8 flags mtype length seq spare =>
    exact decode_encode_hdr8 mtype length seq spare (by simpa [Instr.wf] using h)
  | hdr16 flags mtype length seid seq spare => exact decode_encode_hdr16 mtype length seid seq spare h
  | ie type length instByte => exact decode_encode_ie type length instByte
  | nop v => exact congrArg Except.ok (decodeCommand_of_bits0 (beq_iff_eq.mp h))
  | start v => exact congrArg Except.ok (decodeCommand_of_bits1 (beq_iff_eq.mp h))
  | next v => exact congrArg Except.ok (decodeCommand_of_bits2 (beq_iff_eq.mp h))
  | clear v => exact congrArg Except.ok (decodeCommand_of_bits3 (beq_iff_eq.mp h))
  | load | setlen | rdreg | rdbuf => rfl
  | msgtype1 | msgtype2 | msgtype50 | msgtype51 => rfl
  | ietype1 | ietype3 | ietype19 | ietype60 | ietype96 => rfl
  | causeAccepted => rfl

/-- Settles O8, by the kinds of instruction: a record's fields are their bytes joined again, a command is selected by the
two bits that make it well formed. -/
theorem decodeOfEncodeIsTheInstruction : Obligations.DecodeOfEncodeIsTheInstruction :=
  fun _ => decode_encode

/-! ### Encoding undoes decoding -/

theorem HeaderReading.wf_and_encode {bs : List Byte} {i : Instr} (h : HeaderReading bs i) :
    i.wf = true ∧ ∃ cs, encode i = .header cs ∧ cs <+: bs := by
  cases h with
  | hdr8 rest hs =>
    refine ⟨by simp [Instr.wf, hs], _, rfl, ?_⟩
    rw [bytes16_be16, bytes24_be24]
    exact List.prefix_append _ rest
  | hdr16 rest hs =>
    refine ⟨hs, _, rfl, ?_⟩
    rw [bytes16_be16, bytes64_be64, bytes24_be24]
    exact List.prefix_append _ rest

theorem encode_of_decodeElementRecord {bs : List Byte} {i : Instr} (h : decodeElementRecord bs = .ok i) :
    i.wf = true ∧ ∃ cs, encode i = .element cs ∧ cs <+: bs := by
  obtain ⟨t1, t0, l1, l0, b, rest, rfl, rfl⟩ := decodeElementRecord_eq_ok_iff.mp h
  refine ⟨rfl, _, rfl, ?_⟩
  rw [bytes16_be16, bytes16_be16]
  exact List.prefix_append _ rest

theorem encode_decodeCommand (v : PortData) :
    (decodeCommand v).wf = true ∧ encode (decodeCommand v) = .access (.regWrite 0x00 v) := by
  rcases Machine.commandBits_cases v with h | h | h | h
  · rw [decodeCommand_of_bits0 h]; exact ⟨beq_iff_eq.mpr h, rfl⟩
  · rw [decodeCommand_of_bits1 h]; exact ⟨beq_iff_eq.mpr h, rfl⟩
  · rw [decodeCommand_of_bits2 h]; exact ⟨beq_iff_eq.mpr h, rfl⟩
  · rw [decodeCommand_of_bits3 h]; exact ⟨beq_iff_eq.mpr h, rfl⟩

theorem encode_of_decodeAccess {a : HostAccess} {i : Instr} (h : decodeAccess a = .ok i) :
    i.wf = true ∧ encode i = .access a := by
  cases a with
  | bufWrite | bufRead | regRead => cases h; exact ⟨rfl, rfl⟩
  | regWrite k v =>
    simp only [decodeAccess] at h
    split at h
    · next hk => cases h; subst hk; exact encode_decodeCommand v
    · split at h
      · next hk => cases h; subst hk; exact ⟨rfl, rfl⟩
      · cases h

theorem encode_of_decodeCode {f : CodeField} {v : BitVec 16} {i : Instr} (h : decodeCode f v = .ok i) :
    i.wf = true ∧ encode i = .code f v := by
  unfold decodeCode at h
  repeat' split at h
  all_goals cases h
  all_goals subst v; exact ⟨rfl, rfl⟩

/-- Settles O9, by the place that was read: each decoder's result encodes to what stood there. -/
theorem encodeOfDecodeIsWhatWasRead : Obligations.EncodeOfDecodeIsWhatWasRead := by
  intro e i h
  cases e with
  | header bs =>
    obtain ⟨hwf, cs, he, hp⟩ := (decodeHeaderRecord_eq_ok_iff.mp h).wf_and_encode
    rw [he]
    exact ⟨hwf, hp⟩
  | element bs =>
    obtain ⟨hwf, cs, he, hp⟩ := encode_of_decodeElementRecord h
    rw [he]
    exact ⟨hwf, hp⟩
  | access a =>
    obtain ⟨hwf, he⟩ := encode_of_decodeAccess h
    rw [he]
    exact ⟨hwf, rfl⟩
  | code f v =>
    obtain ⟨hwf, he⟩ := encode_of_decodeCode h
    rw [he]
    exact ⟨hwf, rfl, rfl⟩

/-! ### Words and codes -/

/-- A named code decodes from the one value that it is encoded as. -/
theorem decode_code_eq_ok_iff {f : CodeField} {v w : BitVec 16} {i : Instr} (hwf : i.wf = true)
    (he : encode i = .code f w) : decode (.code f v) = .ok i ↔ v = w := by
  constructor
  · intro h
    have hv : encode i = .code f v := (encode_of_decodeCode h).2
    rw [he] at hv
    cases hv
    rfl
  · rintro rfl
    exact he ▸ decode_encode hwf

/-- Settles O7, by evaluating the decoder on each word. -/
theorem sampleWordsDecodeAsWritten : Obligations.SampleWordsDecodeAsWritten :=
  ⟨by decide, by decide, by decide, by decide, by decide, by decide, by decide⟩

/-- Settles O46: `exec` selects nothing for each code, and each decodes from the value it is encoded as alone. -/
theorem namedCodesSelectNothing : Obligations.NamedCodesSelectNothing :=
  ⟨fun _ => ⟨rfl, rfl, rfl, rfl, rfl, rfl, rfl, rfl, rfl, rfl⟩,
    fun _ => ⟨decode_code_eq_ok_iff rfl rfl, decode_code_eq_ok_iff rfl rfl, decode_code_eq_ok_iff rfl rfl,
      decode_code_eq_ok_iff rfl rfl, decode_code_eq_ok_iff rfl rfl, decode_code_eq_ok_iff rfl rfl,
      decode_code_eq_ok_iff rfl rfl, decode_code_eq_ok_iff rfl rfl, decode_code_eq_ok_iff rfl rfl,
      decode_code_eq_ok_iff rfl rfl⟩⟩

end Sys2Proof
end

section
/-! PROOF. O20 and O21: what the records' meanings do not look at. The reserved bits reach no field (R88); the version, the
message type and an IE's type reach their own registers and no decision (R90, R96). -/

namespace Sys2Proof.Machine

/-! ### Reserved bits -/

/-- The 6 bytes between flags and spare give an `HDR8`'s operands, whatever those two bytes are otherwise (R81). -/
theorem decode_hdr8_between {m : List Byte} (hm : m.length = 6) : ∃ t l q, ∀ f p, sessionBit f = false →
    decode (.header (f :: m ++ [p])) = .ok (.hdr8 f t l q p) :=
  match m, hm with
  | [_, _, _, _, _, _], _ => ⟨_, _, _, fun _ _ hs => decodeHeaderRecord_eq_ok_iff.mpr (.hdr8 [] hs)⟩

/-- The 14 bytes between flags and spare give an `HDR16`'s operands, whatever those two bytes are otherwise (R82). -/
theorem decode_hdr16_between {m : List Byte} (hm : m.length = 14) : ∃ t l x q, ∀ f p, sessionBit f = true →
    decode (.header (f :: m ++ [p])) = .ok (.hdr16 f t l x q p) :=
  match m, hm with
  | [_, _, _, _, _, _, _, _, _, _, _, _, _, _], _ =>
    ⟨_, _, _, _, fun _ _ hs => decodeHeaderRecord_eq_ok_iff.mpr (.hdr16 [] hs)⟩

/-- The 4 bytes before the last give a mini-header's type and length (R84). -/
theorem decode_ie_before {m : List Byte} (hm : m.length = 4) : ∃ y l, ∀ b,
    decode (.element (m ++ [b])) = .ok (.ie y l b) :=
  match m, hm with
  | [_, _, _, _], _ => ⟨_, _, fun _ => rfl⟩

/-- Of the flags byte an `HDR8` takes the version alone, of the spare byte nothing (R83, R88). -/
theorem exec_hdr8_congr {f f' : Byte} (hv : versionOf f' = versionOf f) (t p p' : Byte) (l : BitVec 16) (q : BitVec 24)
    (s : State) : exec (.hdr8 f' t l q p') s = exec (.hdr8 f t l q p) s := by
  simp only [exec, execHdr8, fieldsOfHdr8, hv]

theorem exec_hdr16_congr {f f' : Byte} (hv : versionOf f' = versionOf f) (t p p' : Byte) (l : BitVec 16)
    (x : BitVec 64) (q : BitVec 24) (s : State) : exec (.hdr16 f' t l x q p') s = exec (.hdr16 f t l x q p) s := by
  simp only [exec, execHdr16, fieldsOfHdr16, hv]

/-- Of its last byte a record takes bits 3 to 0 alone (R85, R88). -/
theorem exec_ie_congr {b b' : Byte} (hb : instanceOf b' = instanceOf b) (y l : BitVec 16) (s : State) :
    exec (.ie y l b') s = exec (.ie y l b) s := by
  simp only [exec, execIe, hb]

theorem reservedHeaderBits_noEffect {f f' p p' : Byte} {m : List Byte} {i : Instr} (hv : versionOf f = versionOf f')
    (hs : sessionBit f = sessionBit f') (hm : m.length = if sessionBit f then 14 else 6)
    (h : decode (.header (f :: m ++ [p])) = .ok i) :
    ∃ i', decode (.header (f' :: m ++ [p'])) = .ok i' ∧ ∀ s, exec i' s = exec i s := by
  cases hf : sessionBit f with
  | false =>
    rw [hf] at hm hs
    obtain ⟨t, l, q, read⟩ := decode_hdr8_between hm
    cases (read f p hf).symm.trans h
    exact ⟨_, read f' p' hs.symm, exec_hdr8_congr hv.symm t p p' l q⟩
  | true =>
    rw [hf] at hm hs
    obtain ⟨t, l, x, q, read⟩ := decode_hdr16_between hm
    cases (read f p hf).symm.trans h
    exact ⟨_, read f' p' hs.symm, exec_hdr16_congr hv.symm t p p' l x q⟩

theorem reservedInstanceBits_noEffect {b b' : Byte} {m : List Byte} {i : Instr} (hb : instanceOf b = instanceOf b')
    (hm : m.length = 4) (h : decode (.element (m ++ [b])) = .ok i) :
    ∃ i', decode (.element (m ++ [b'])) = .ok i' ∧ ∀ s, exec i' s = exec i s := by
  obtain ⟨y, l, read⟩ := decode_ie_before hm
  cases (read b).symm.trans h
  exact ⟨_, read b', exec_ie_congr hb.symm y l⟩

/-- Settles O20: the reserved bits are in no operand that a meaning looks at. -/
theorem reservedBitsHaveNoEffect : Obligations.ReservedBitsHaveNoEffect :=
  ⟨fun _ _ _ _ _ _ => reservedHeaderBits_noEffect, fun _ _ _ _ => reservedInstanceBits_noEffect⟩

/-! ### Version, message type and IE type -/

/-- Two headers with the same fields but for version and message type. -/
def HeaderFields.SameButCodes (f g : HeaderFields) : Prop := { f with ver := g.ver, mtype := g.mtype } = g

/-- A header is judged by its lengths and its flag, so such two write the same but for `H_VER` and `H_TYPE` (R90). -/
theorem writeHeader_judgeHeader_sameButCodes {f g : HeaderFields} (h : f.SameButCodes g) (bias n : Nat) (s : State) :
    { writeHeader (judgeHeader bias n f) s with hVer := 0, hType := 0 } =
      { writeHeader (judgeHeader bias n g) s with hVer := 0, hType := 0 } := by
  rw [← h]
  simp only [judgeHeader]
  split_ifs <;> rfl

/-- A header whose bytes are there delivers its version and its message type (R112). -/
theorem writeHeader_judgeHeader_codes {n : Nat} {f : HeaderFields} (h8 : 8 ≤ n) (h16 : f.s = true → 16 ≤ n) (bias : Nat)
    (s : State) : (writeHeader (judgeHeader bias n f) s).hVer = f.ver ∧
      (writeHeader (judgeHeader bias n f) s).hType = f.mtype := by
  rcases judgeHeader_cases bias n f with ⟨hlt, _⟩ | ⟨_, hs, hlt, _⟩ | ⟨_, _, _, h⟩ | ⟨_, _, _, h⟩
  · omega
  · have := h16 hs
    omega
  · rw [h]
    exact ⟨rfl, rfl⟩
  · rw [h]
    exact ⟨rfl, rfl⟩

theorem headerStep_codesPassThrough {f g : HeaderFields} {s a b : State} (h : f.SameButCodes g)
    (ha : headerStep f s = .next a) (hb : headerStep g s = .next b) :
    { a with hVer := 0, hType := 0 } = { b with hVer := 0, hType := 0 } ∧
      (s.phase = .hdr → 8 ≤ s.dlen.toNat → (f.s = true → 16 ≤ s.dlen.toNat) → a.hVer = f.ver ∧ a.hType = f.mtype) := by
  by_cases hp : s.phase = .hdr
  · rw [headerStep_eq f hp] at ha
    rw [headerStep_eq g hp] at hb
    cases ha
    cases hb
    exact ⟨writeHeader_judgeHeader_sameButCodes h _ _ s, fun _ h8 h16 => writeHeader_judgeHeader_codes h8 h16 _ s⟩
  · rw [headerStep, if_neg hp] at ha hb
    cases ha
    cases hb
    exact ⟨rfl, fun hp' => absurd hp' hp⟩

/-- Whether a record is emitted, ends the extraction or is not taken is decided without its type (R96). -/
theorem execIe_decided_without_type (length : BitVec 16) (instByte : Byte) (s : State) :
    (∀ y, execIe y length instByte s = .next (emitRecord y length (instanceOf instByte) s)) ∨
    (∀ y, execIe y length instByte s = .next (stopExtraction s)) ∨ (∀ y, execIe y length instByte s = .next s) := by
  unfold execIe
  split_ifs
  · exact .inl fun _ => rfl
  · exact .inr (.inl fun _ => rfl)
  · exact .inr (.inl fun _ => rfl)
  · exact .inr (.inr fun _ => rfl)

theorem execIe_typePassesThrough {y y' length : BitVec 16} {instByte : Byte} {s a b : State}
    (ha : execIe y length instByte s = .next a) (hb : execIe y' length instByte s = .next b) :
    { a with ieType := 0 } = { b with ieType := 0 } ∧ (s.ieValid = false → a.ieValid = true → a.ieType = y) := by
  rcases execIe_decided_without_type length instByte s with emits | stops | waits
  · rw [emits] at ha hb
    cases ha
    cases hb
    exact ⟨rfl, fun _ _ => rfl⟩
  · rw [stops] at ha hb
    cases ha
    cases hb
    exact ⟨rfl, fun hs hv => absurd (hs.symm.trans hv) Bool.false_ne_true⟩
  · rw [waits] at ha hb
    cases ha
    cases hb
    exact ⟨rfl, fun hs hv => absurd (hs.symm.trans hv) Bool.false_ne_true⟩

/-- Settles O21: no decision of a header or record step looks at the version or a type, and each is delivered. -/
theorem codesPassThroughUnexamined : Obligations.CodesPassThroughUnexamined := by
  refine ⟨fun f f' m m' _ length seq s a b ha hb => ?_, fun f f' m m' _ length seid seq s a b ha hb => ?_,
    fun _ _ _ _ _ _ _ => execIe_typePassesThrough⟩
  · obtain ⟨same, delivered⟩ := headerStep_codesPassThrough (f := fieldsOfHdr8 f m length seq)
      (g := fieldsOfHdr8 f' m' length seq) rfl ha hb
    exact ⟨same, fun hp h8 => delivered hp h8 nofun⟩
  · obtain ⟨same, delivered⟩ := headerStep_codesPassThrough (f := fieldsOfHdr16 f m length seid seq)
      (g := fieldsOfHdr16 f' m' length seid seq) rfl ha hb
    exact ⟨same, fun hp h16 => delivered hp (by omega) fun _ => h16⟩

end Sys2Proof.Machine
end

section
/-! PROOF. O10: a turn runs the instruction that its record, access or code decodes to (R80, R112, R132, R180). -/

namespace Sys2Proof.Machine

/-- The header at offset 0 is decoded, and its instruction run, whatever turns are to come. -/
theorem parserTurn_of_decode_header {s : State} {i : Instr} (turns : List Turn) (hp : s.phase = .hdr)
    (h8 : 8 ≤ s.dlen.toNat) (hfit : hdrLen (sessionBit (bufByte s 0)) ≤ s.dlen.toNat)
    (h : decode (.header (bufBytes s 0 (hdrLen (sessionBit (bufByte s 0))))) = .ok i) :
    parserTurn { s with schedule := turns } = exec i { s with schedule := turns } := by
  have h16 : sessionBit (bufByte s 0) = true → 16 ≤ s.dlen.toNat := fun hs => by rwa [hs] at hfit
  cases (decode_header_bufBytes s).symm.trans h
  exact parserTurn_header (s := { s with schedule := turns }) hp (short8_false_iff.mpr h8) (short16_false_iff.mpr h16)

/-- The mini-header at `OFF` is decoded, and its instruction run, whatever turns are to come. -/
theorem parserTurn_of_decode_element {s : State} {i : Instr} (turns : List Turn) (hp : s.phase = .ies)
    (hv : s.ieValid = false) (h5 : 5 ≤ s.endOff.toNat - s.off.toNat) (hd : s.off.toNat + 5 ≤ s.dlen.toNat)
    (h : decode (.element (bufBytes s s.off.toNat 5)) = .ok i) :
    parserTurn { s with schedule := turns } = exec i { s with schedule := turns } := by
  cases (decode_element_bufBytes s).symm.trans h
  exact parserTurn_element (s := { s with schedule := turns }) hp hv h5 hd

theorem hostTurn_of_decode {a : HostAccess} {i : Instr} (h : decode (.access a) = .ok i) (s : State) :
    hostTurn a s = exec i s := by
  rw [hostTurn, h]

theorem labelTurn_of_decode {f : CodeField} {v : BitVec 16} {i : Instr} (h : decode (.code f v) = .ok i) (s : State) :
    labelTurn f v s = exec i s := by
  rw [labelTurn, h]

theorem step_withSchedule_cons (s : State) (u : Turn) (rest : List Turn) :
    step { s with schedule := u :: rest } = takeTurn u { s with schedule := rest } :=
  step_cons (s := { s with schedule := u :: rest }) rfl

theorem step_withSchedule_nil (s : State) : step { s with schedule := [] } = parserTurn { s with schedule := [] } :=
  step_nil (s := { s with schedule := [] }) rfl

/-- Settles O10, by the four kinds of turn. -/
theorem stepRunsTheDecodedInstruction : Obligations.StepRunsTheDecodedInstruction := by
  intro s i rest
  refine ⟨fun hp h8 hfit h => ?_, fun hp hv h5 hd h => ?_, fun a h => ?_, fun f v h => ?_⟩
  · have run (turns : List Turn) := parserTurn_of_decode_header turns hp h8 hfit h
    exact ⟨(step_withSchedule_cons s .parser rest).trans (run rest), (step_withSchedule_nil s).trans (run [])⟩
  · have run (turns : List Turn) := parserTurn_of_decode_element turns hp hv h5 hd h
    exact ⟨(step_withSchedule_cons s .parser rest).trans (run rest), (step_withSchedule_nil s).trans (run [])⟩
  · exact (step_withSchedule_cons s (.host a) rest).trans (hostTurn_of_decode h _)
  · exact (step_withSchedule_cons s (.label f v) rest).trans (labelTurn_of_decode h _)

end Sys2Proof.Machine
end

section
/-! PROOF. O13, O14 and O56: what `HDR8` and `HDR16` write (R112 to R114), and that a record whose step is not enabled
writes nothing. Before them, the verdict on a header whose bytes are all there: its length decides, and nothing else. -/

namespace Sys2Proof.Machine

/-! ### A whole header -/

/-- A whole header is taken for short by neither test (R151, R152). -/
theorem short_false_of_hdrLen_le {n : Nat} {b : Bool} (h : hdrLen b ≤ n) : short8 n = false ∧ short16 n b = false := by
  rw [hdrLen_eq] at h
  refine ⟨short8_false_iff.mpr (by omega), short16_false_iff.mpr fun hb => ?_⟩
  rw [hb] at h
  exact h

theorem judgeHeader_badLength {bias n : Nat} {f : HeaderFields} (hfit : hdrLen f.s ≤ n)
    (hl : f.length.toNat + bias < f.hlen) : judgeHeader bias n f = .badLength f := by
  obtain ⟨h8, h16⟩ := short_false_of_hdrLen_le hfit
  simp only [judgeHeader, h8, h16, badLen_iff.mpr hl, Bool.false_eq_true, if_false, if_true]

theorem judgeHeader_ok {bias n : Nat} {f : HeaderFields} (hfit : hdrLen f.s ≤ n)
    (hl : f.hlen ≤ f.length.toNat + bias) : judgeHeader bias n f =
      .ok f f.hlen (payloadEnd bias f.length.toNat n) (clamped bias f.length.toNat n) := by
  obtain ⟨h8, h16⟩ := short_false_of_hdrLen_le hfit
  simp only [judgeHeader, h8, h16, badLen_false_iff.mpr hl, Bool.false_eq_true, if_false]

/-! ### `HDR8` and `HDR16` -/

theorem exec_hdr8_eq (flags mtype : Byte) (length : BitVec 16) (seq : BitVec 24) (spare : Byte) (s : State) :
    exec (.hdr8 flags mtype length seq spare) s = headerStep (fieldsOfHdr8 flags mtype length seq) s := rfl

theorem exec_hdr16_eq (flags mtype : Byte) (length : BitVec 16) (seid : BitVec 64) (seq : BitVec 24) (spare : Byte)
    (s : State) :
    exec (.hdr16 flags mtype length seid seq spare) s = headerStep (fieldsOfHdr16 flags mtype length seid seq) s := rfl

/-- The header step on a whole header whose length covers it opens the payload (R112). -/
theorem headerStep_ok {s : State} {f : HeaderFields} (hp : s.phase = .hdr) (hfit : hdrLen f.s ≤ s.dlen.toNat)
    (hl : f.hlen ≤ f.length.toNat) : headerStep f s = .next
      (openPayload f.hlen (min f.length.toNat s.dlen.toNat) (decide (s.dlen.toNat < f.length.toNat))
        (writeFields f s)) := by
  rw [headerStep_eq f hp, judgeHeader_ok hfit hl]
  rfl

theorem headerStep_notEnabled {s : State} (f : HeaderFields) (hp : s.phase ≠ .hdr) : headerStep f s = .next s :=
  if_neg hp

theorem execIe_notEnabled {s : State} (type length : BitVec 16) (instByte : Byte)
    (h : s.phase ≠ .ies ∨ s.ieValid = true) : execIe type length instByte s = .next s := by
  have disabled : ¬ ieEnabled s = true := by
    rw [ieEnabled_iff]
    rintro ⟨hp, hv⟩
    exact h.elim (absurd hp) (by simp [hv])
  exact if_neg disabled

/-- Settles O13: a whole `HDR8` whose length covers it opens the payload. -/
theorem hdr8WritesTheDecodedHeader : Obligations.Hdr8WritesTheDecodedHeader := by
  intro flags mtype spare length seq s hp hd hl
  rw [exec_hdr8_eq, headerStep_ok (f := fieldsOfHdr8 flags mtype length seq) hp hd hl]
  rfl

/-- Settles O14: a whole `HDR16` whose length covers it opens the payload. -/
theorem hdr16WritesTheDecodedHeader : Obligations.Hdr16WritesTheDecodedHeader := by
  intro flags mtype spare length seid seq s hp hd hl
  rw [exec_hdr16_eq, headerStep_ok (f := fieldsOfHdr16 flags mtype length seid seq) hp hd hl]
  rfl

/-- Settles O56: each of the three meanings tests its step's enabling first (log entry 5). -/
theorem recordStepNotEnabledDoesNotHappen : Obligations.RecordStepNotEnabledDoesNotHappen :=
  ⟨fun _ _ _ _ _ _ hp => headerStep_notEnabled _ hp, fun _ _ _ _ _ _ _ hp => headerStep_notEnabled _ hp,
    fun type length instByte _ h => execIe_notEnabled type length instByte h⟩

end Sys2Proof.Machine
end

section
/-! PROOF. O17, O18 and O19: the parser's header step is `DecodeHeader` of the datagram, written to the registers (R110,
R112); what that says of short datagrams (R117) and of the header length (R116). -/

namespace Sys2Proof.Machine

/-! ### `DecodeHeader` and the fields of a header -/

theorem headerFields_s (d : List Byte) : (headerFields d).s = sessionBit (byteAt d 0) := by
  unfold headerFields
  split
  next hs => exact hs.symm
  next hs => exact (Bool.eq_false_iff.mpr hs).symm

theorem headerFields_shaped (d : List Byte) : (headerFields d).Shaped := by
  unfold headerFields
  split
  · exact ⟨rfl, nofun⟩
  · exact ⟨rfl, fun _ => rfl⟩

/-- `DecodeHeader` and the block put the same questions to the fields, in the same order (R110, R248). -/
theorem decodeHeader_eq_judgeHeader (bias : Nat) (d : List Byte) :
    decodeHeader bias d = judgeHeader bias d.length (headerFields d) := by
  rw [decodeHeader, judgeHeader, headerFields_s]

/-- What the header registers show of the session id (R30, R112). -/
theorem HeaderFields.Shaped.ite_seid {f : HeaderFields} (hf : f.Shaped) :
    (if f.s then f.seid.getD 0 else 0) = f.seid.getD 0 := by
  split
  · rfl
  next hs => exact (hf.seid_getD (Bool.eq_false_iff.mpr hs)).symm

/-! ### The datagram -/

@[simp] theorem datagram_length (s : State) : (datagram s).length = s.dlen.toNat := bufBytes_length s 0 _

theorem byteAt_datagram {s : State} {o : Nat} (h : o < s.dlen.toNat) : byteAt (datagram s) o = bufByte s o := by
  rw [byteAt, datagram, bufBytes_getD s 0 _ o h, Nat.zero_add]

/-- The record at offset 0 has the fields that `DecodeHeader` reads from the datagram. -/
theorem exec_headerAt {s : State} (hfit : hdrLen (sessionBit (bufByte s 0)) ≤ s.dlen.toNat) :
    exec (headerAt s) s = headerStep (headerFields (datagram s)) s := by
  have read {o : Nat} (h : o < hdrLen (sessionBit (bufByte s 0))) : byteAt (datagram s) o = bufByte s o :=
    byteAt_datagram (Nat.lt_of_lt_of_le h hfit)
  cases hs : sessionBit (bufByte s 0) with
  | false =>
    rw [hs, hdrLen_false] at read
    simp [headerAt, headerFields, hs, exec_hdr8_eq, fieldsOfHdr8, be16At, be24At, read]
  | true =>
    rw [hs, hdrLen_true] at read
    simp [headerAt, headerFields, hs, exec_hdr16_eq, fieldsOfHdr16, be16At, be24At, be64At, read]

/-! ### The header step -/

/-- `HDRSTEP` is `DecodeHeader` of the datagram, written to the registers (R112). -/
theorem parserTurn_decodeHeader {s : State} (hp : s.phase = .hdr) :
    parserTurn s = .next (writeHeader (decodeHeader Config.lenBias (datagram s)) s) := by
  rw [decodeHeader_eq_judgeHeader, datagram_length]
  cases h8 : short8 s.dlen.toNat with
  | true =>
    rw [parserTurn_short8 hp h8, judgeHeader, if_pos h8]
  | false =>
    have flags : byteAt (datagram s) 0 = bufByte s 0 :=
      byteAt_datagram (Nat.lt_of_lt_of_le (by decide) (short8_false_iff.mp h8))
    cases h16 : short16 s.dlen.toNat (sessionBit (bufByte s 0)) with
    | true =>
      rw [parserTurn_short16 hp h8 h16, judgeHeader, headerFields_s, flags,
        if_neg (Bool.eq_false_iff.mp h8), if_pos h16]
    | false =>
      rw [parserTurn_header hp h8 h16, exec_headerAt (hdrLen_le_of_fits h8 h16), headerStep_eq _ hp]

theorem writeHeader_phase (r : HeaderResult) (s : State) :
    (writeHeader r s).phase = .ies ∨ (writeHeader r s).phase = .error := by
  cases r with
  | ok => exact .inl rfl
  | badLength | invalid => exact .inr rfl

/-- Outside HDR the parser's turn moves `OFF` and writes nothing else of the header result (R132). -/
theorem ParserEffect.headerView_eq {s t : State} (e : ParserEffect s t) (hp : s.phase ≠ .hdr) :
    { headerView t with off := s.off } = headerView s := by
  cases e with
  | none | emit | stop => rfl
  | header f hp' => exact absurd hp' hp

theorem step_parser (s : State) (rest : List Turn) :
    step { s with schedule := .parser :: rest } = parserTurn { s with schedule := rest } :=
  step_withSchedule_cons s .parser rest

theorem datagram_withSchedule (s : State) (turns : List Turn) : datagram { s with schedule := turns } = datagram s :=
  bufBytes_congr (s := { s with schedule := turns }) (t := s) rfl rfl 0 s.dlen.toNat

theorem step_parser_decodeHeader {s : State} (rest : List Turn) (hp : s.phase = .hdr) :
    step { s with schedule := .parser :: rest } =
      .next (writeHeader (decodeHeader Config.lenBias (datagram s)) { s with schedule := rest }) := by
  rw [step_parser, parserTurn_decodeHeader (s := { s with schedule := rest }) hp, datagram_withSchedule]

/-- Settles O18, by `DecodeHeader`'s result in HDR and by what the parser's turn can do outside it. -/
theorem headerStepAgreesWithDecodeHeader : Obligations.HeaderStepAgreesWithDecodeHeader := by
  intro s rest
  refine ⟨fun hp => ?_, fun hp t h => ?_⟩
  · refine ⟨_, step_parser_decodeHeader rest hp, writeHeader_phase .., ?_⟩
    have seid := (headerFields_shaped (datagram s)).ite_seid
    rw [decodeHeader_eq_judgeHeader]
    rcases judgeHeader_cases Config.lenBias (datagram s).length (headerFields (datagram s)) with
      ⟨_, e⟩ | ⟨_, _, _, e⟩ | ⟨_, _, _, e⟩ | ⟨_, _, _, e⟩ <;> rw [e]
    · rfl
    · rfl
    · simp only [seid]
      rfl
    · simp only [seid]
      rfl
  · rw [step_parser] at h
    exact (parserTurn_effect h).headerView_eq (s := { s with schedule := rest }) hp

/-! ### Short datagrams -/

theorem decodeHeader_short {bias : Nat} {d : List Byte}
    (h : d.length < 8 ∨ sessionBit (byteAt d 0) = true ∧ d.length < 16) :
    ∃ c, decodeHeader bias d = .invalid c := by
  rw [decodeHeader]
  split
  · exact ⟨_, rfl⟩
  next h8 =>
    have h16 : short16 d.length (sessionBit (byteAt d 0)) = true :=
      short16_iff.mpr (h.resolve_left fun hlt => h8 (short8_iff.mpr hlt))
    exact ⟨_, if_pos h16⟩

/-- An invalid header leaves ERROR and no field, so there is no Message (R25, R50, R112). -/
theorem writeHeader_invalid_noMessage (c : ErrCode) (s : State) :
    (writeHeader (.invalid c) s).phase = .error ∧ (writeHeader (.invalid c) s).hValid = false ∧
      headerClear (writeHeader (.invalid c) s) ∧ messageView (writeHeader (.invalid c) s) = none :=
  ⟨rfl, rfl, ⟨rfl, rfl, rfl, rfl, rfl, rfl, rfl, rfl⟩, rfl⟩

/-- Settles O17: `DecodeHeader` of a short datagram is `Invalid`. -/
theorem shortInputNeverYieldsAPartialMessage : Obligations.ShortInputNeverYieldsAPartialMessage := by
  intro s rest hp hshort
  have short : (datagram s).length < 8 ∨ sessionBit (byteAt (datagram s) 0) = true ∧ (datagram s).length < 16 := by
    rw [datagram_length]
    by_cases h8 : s.dlen.toNat < 8
    · exact .inl h8
    · rw [byteAt_datagram (by omega)]
      exact hshort
  obtain ⟨c, e⟩ := decodeHeader_short (bias := Config.lenBias) short
  refine ⟨_, step_parser_decodeHeader rest hp, ?_⟩
  rw [e]
  exact writeHeader_invalid_noMessage c _

/-! ### The header length -/

/-- R116 of one state: a reported header has the length its flag says. -/
def HeaderLenByFlag (s : State) : Prop := s.hValid = true → s.hHlen.toNat = 8 + 8 * s.hS.toNat

theorem writeHeader_headerLenByFlag {f : HeaderFields} (hf : f.Shaped) (bias n : Nat) (s : State) :
    HeaderLenByFlag (writeHeader (judgeHeader bias n f) s) := by
  rcases judgeHeader_cases bias n f with ⟨_, e⟩ | ⟨_, _, _, e⟩ | ⟨_, _, _, e⟩ | ⟨_, _, _, e⟩ <;> rw [e]
  · exact nofun
  · exact nofun
  · exact fun _ => hf.hHlen_toNat
  · exact fun _ => hf.hHlen_toNat

theorem ParserEffect.headerLenByFlag {s t : State} (e : ParserEffect s t) (h : HeaderLenByFlag s) :
    HeaderLenByFlag t := by
  cases e with
  | none | emit | stop => exact h
  | header f _ hf => exact writeHeader_headerLenByFlag hf _ _ s

theorem HostEffect.headerLenByFlag {s t : State} {a : HostAccess} (e : HostEffect s a t) (h : HeaderLenByFlag s) :
    HeaderLenByFlag t := by
  cases e with
  | reject | nop | start | take | load | setlen | readRegister | readBuffer => exact h
  | clear => exact nofun

theorem TurnEffect.headerLenByFlag {s t : State} {u : Turn} (e : TurnEffect s u t) (h : HeaderLenByFlag s) :
    HeaderLenByFlag t := by
  cases e with
  | parser e => exact e.headerLenByFlag h
  | host e => exact e.headerLenByFlag h
  | label => exact h
  | reset => exact nofun

/-- Settles O19: the header step alone reports a header, and with the length of its flag. -/
theorem headerLengthFollowsTheFlagAlone : Obligations.HeaderLengthFollowsTheFlagAlone := by
  refine ⟨nofun, fun s t h hs => ?_⟩
  rcases step_effect hs with ⟨_, e⟩ | ⟨_, _, _, e⟩
  · exact e.headerLenByFlag h
  · exact e.headerLenByFlag h

end Sys2Proof.Machine
end

section
/-! PROOF. O32: decoding undoes `EncodeHeader` on the fields (R118), whatever payload follows. The encoder's length field
counts 4 bytes less than header and payload have (R202), so a payload told below 4 bytes is what makes it too small. -/

namespace Sys2Proof.Machine

/-! ### The fields at the front of some bytes -/

theorem headerFields_hdr8Bytes {flags : Byte} (hs : sessionBit flags = false) (mtype spare : Byte) (length : BitVec 16)
    (seq : BitVec 24) (pay : List Byte) :
    headerFields (flags :: mtype :: (bytes16 length ++ bytes24 seq ++ [spare]) ++ pay) =
      fieldsOfHdr8 flags mtype length seq := by
  simp [headerFields, byteAt, be16At, be24At, bytes16, bytes24, hs, be16_fieldBytes, be24_fieldBytes, fieldsOfHdr8]

theorem headerFields_hdr16Bytes {flags : Byte} (hs : sessionBit flags = true) (mtype spare : Byte) (length : BitVec 16)
    (seid : BitVec 64) (seq : BitVec 24) (pay : List Byte) :
    headerFields (flags :: mtype :: (bytes16 length ++ bytes64 seid ++ bytes24 seq ++ [spare]) ++ pay) =
      fieldsOfHdr16 flags mtype length seid seq := by
  simp [headerFields, byteAt, be16At, be24At, be64At, bytes16, bytes24, bytes64, hs, be16_fieldBytes, be24_fieldBytes,
    be64_fieldBytes, fieldsOfHdr16]

/-! ### The encoder -/

/-- The fields that `EncodeHeader` is given, with its version 1 and its length field (R202). -/
def encodedFields (mtype : Byte) (plen : BitVec 16) (seq : BitVec 24) (seid : Option (BitVec 64)) : HeaderFields :=
  { ver := 1, s := seid.isSome, mtype := mtype, length := BitVec.ofNat 16 (encodedLength seid plen), seid := seid
    seq := seq, hlen := hdrLen seid.isSome }

theorem encodedLength_add_four (seid : Option (BitVec 64)) (plen : BitVec 16) :
    encodedLength seid plen + 4 = hdrLen seid.isSome + plen.toNat := by
  rw [encodedLength]
  cases seid <;> simp <;> omega

/-- What `EncodeHeader` answers, where it is defined (R202, R204): a length field that fits, and a whole header with the
fields it was given at the front of whatever follows. -/
theorem encodeHeader_eq_some {mtype : Byte} {plen : BitVec 16} {seq : BitVec 24} {seid : Option (BitVec 64)}
    {hdr : List Byte} (h : encodeHeader mtype plen seq seid = some hdr) :
    encodedLength seid plen ≤ 65535 ∧ hdr.length = hdrLen seid.isSome ∧
      ∀ pay, headerFields (hdr ++ pay) = encodedFields mtype plen seq seid := by
  unfold encodeHeader at h
  split at h
  next hfit =>
    cases seid with
    | none => cases h; exact ⟨hfit, rfl, headerFields_hdr8Bytes rfl mtype 0 _ seq⟩
    | some q => cases h; exact ⟨hfit, rfl, headerFields_hdr16Bytes rfl mtype 0 _ q seq⟩
  · cases h

theorem encodedFields_length_toNat {seid : Option (BitVec 64)} {plen : BitVec 16} (mtype : Byte) (seq : BitVec 24)
    (h : encodedLength seid plen ≤ 65535) :
    (encodedFields mtype plen seq seid).length.toNat = encodedLength seid plen :=
  Nat.mod_eq_of_lt (Nat.lt_succ_of_le h)

/-- `DecodeHeader` of an encoded header judges the fields it was made from, all of whose bytes are there. -/
theorem decodeHeader_of_encodeHeader {mtype : Byte} {plen : BitVec 16} {seq : BitVec 24} {seid : Option (BitVec 64)}
    {hdr : List Byte} (h : encodeHeader mtype plen seq seid = some hdr) (bias : Nat) (pay : List Byte) :
    decodeHeader bias (hdr ++ pay) = judgeHeader bias (hdr ++ pay).length (encodedFields mtype plen seq seid) := by
  obtain ⟨_, _, fields⟩ := encodeHeader_eq_some h
  rw [decodeHeader_eq_judgeHeader, fields]

/-- Settles O32: the length field falls short of the header exactly when the payload was told below 4. -/
theorem encodedHeaderFieldsRoundTrip : Obligations.EncodedHeaderFieldsRoundTrip := by
  intro mtype plen seq seid hdr pay h
  obtain ⟨hlen, hhdr, _⟩ := encodeHeader_eq_some h
  have whole : hdrLen (encodedFields mtype plen seq seid).s ≤ (hdr ++ pay).length := by
    rw [List.length_append, hhdr]
    exact Nat.le_add_right ..
  have length := encodedFields_length_toNat mtype seq hlen
  have count := encodedLength_add_four seid plen
  have hlen_eq : (encodedFields mtype plen seq seid).hlen = hdrLen seid.isSome := rfl
  refine ⟨encodedFields mtype plen seq seid, rfl, rfl, rfl, rfl, rfl, fun h4 => ?_, fun h4 => ?_⟩
  · rw [decodeHeader_of_encodeHeader h, judgeHeader_badLength whole (by omega)]
  · rw [decodeHeader_of_encodeHeader h, judgeHeader_ok whole (by omega)]
    exact ⟨_, _, _, rfl⟩

end Sys2Proof.Machine
end

section
/-! PROOF. O22 to O26: the extractor's step. The record at `OFF` is read off `BUF` once (`recordAtOff`); `IESTEP` emits
it where it ends at or before `END`, and stops where it does not (R132 to R135). -/

namespace Sys2Proof.Machine

/-! ### The record at `OFF` -/

/-- The record whose mini-header stands at `OFF` (R84, R85, R132), whether it is whole or not. -/
def recordAtOff (s : State) : IeRecord :=
  { type := be16 (bufByte s s.off.toNat) (bufByte s (s.off.toNat + 1))
    length := be16 (bufByte s (s.off.toNat + 2)) (bufByte s (s.off.toNat + 3))
    inst := instanceOf (bufByte s (s.off.toNat + 4))
    value := bufBytes s (s.off.toNat + 5)
      (be16 (bufByte s (s.off.toNat + 2)) (bufByte s (s.off.toNat + 3))).toNat }

/-- The record at `OFF` is whole: it ends at or before `END` (R132). -/
def RecordFits (s : State) : Prop := s.off.toNat + 5 + (recordAtOff s).length.toNat ≤ s.endOff.toNat

/-- The turns to come are no part of the record. -/
@[simp] theorem recordAtOff_withSchedule (s : State) (turns : List Turn) :
    recordAtOff { s with schedule := turns } = recordAtOff s :=
  congrArg (fun value => { recordAtOff s with value := value })
    (bufBytes_congr (s := { s with schedule := turns }) (t := s) rfl rfl _ _)

/-- `IESTEP`'s emission of the record at `OFF`. -/
def emitAtOff (s : State) : State :=
  emitRecord (recordAtOff s).type (recordAtOff s).length (recordAtOff s).inst s

/-- The five registers and the bytes behind them are the host's view of the record (R51). -/
theorem recordView_emitRecord {s : State} (t l : BitVec 16) (i : BitVec 4) (h5 : 5 ≤ s.endOff.toNat - s.off.toNat) :
    recordView (emitRecord t l i s) =
      some { type := t, length := l, inst := i, value := bufBytes s (s.off.toNat + 5) l.toNat } := by
  have value : bufBytes (emitRecord t l i s) (emitRecord t l i s).ieVoff.toNat l.toNat =
      bufBytes s (s.off.toNat + 5) l.toNat := by
    rw [emitRecord_ieVoff_toNat t l i h5, bufBytes_congr (emitRecord_buf t l i s) (emitRecord_epoch t l i s)]
  rw [recordView, if_pos (emitRecord_ieValid t l i s)]
  simp only [emitRecord_ieType, emitRecord_ieLen, emitRecord_ieInst, value]

theorem RecordFits.bounds {s : State} (h : RecordFits s) : 5 ≤ s.endOff.toNat - s.off.toNat ∧
    (recordAtOff s).length.toNat ≤ s.endOff.toNat - s.off.toNat - 5 := by
  unfold RecordFits at h
  omega

/-- The host sees the record at `OFF`, whatever turns are to come. -/
theorem recordView_emitAtOff {s : State} (h : RecordFits s) (turns : List Turn) :
    recordView (emitAtOff { s with schedule := turns }) = some (recordAtOff s) := by
  obtain ⟨h5, _⟩ := h.bounds
  exact (recordView_emitRecord (s := { s with schedule := turns }) _ _ _ h5).trans
    (congrArg some (recordAtOff_withSchedule s turns))


/-! ### The step -/

theorem exec_ie_eq (type length : BitVec 16) (instByte : Byte) (s : State) :
    exec (.ie type length instByte) s = execIe type length instByte s := rfl

/-- `IE` on a record that reaches beyond `END`, by its mini-header or by its value (R134, R135). -/
theorem execIe_stops {s : State} {length : BitVec 16} (type : BitVec 16) (instByte : Byte) (hp : s.phase = .ies)
    (hv : s.ieValid = false) (h : s.endOff.toNat < s.off.toNat + 5 + length.toNat) :
    execIe type length instByte s = .next (stopExtraction s) := by
  by_cases h5 : 5 ≤ s.endOff.toNat - s.off.toNat
  · rw [execIe_eq _ _ _ hp hv h5, if_neg (by omega)]
  · have noHeader : ¬ ieHdrFits (remaining s.endOff.toNat s.off.toNat) = true := by simpa using h5
    rw [execIe, if_pos (ieEnabled_iff.mpr ⟨hp, hv⟩), if_neg noHeader]

theorem parserTurn_emitAtOff {s : State} (hp : s.phase = .ies) (hv : s.ieValid = false)
    (hd : s.endOff.toNat ≤ s.dlen.toNat) (h : RecordFits s) : parserTurn s = .next (emitAtOff s) :=
  parserTurn_emit hp hv hd h

theorem parserTurn_stop {s : State} (hp : s.phase = .ies) (hv : s.ieValid = false)
    (hd : s.endOff.toNat ≤ s.dlen.toNat) (h : ¬ RecordFits s) : parserTurn s = .next (stopExtraction s) := by
  by_cases h5 : 5 ≤ s.endOff.toNat - s.off.toNat
  · have truncated : s.endOff.toNat - s.off.toNat - 5 < (recordAtOff s).length.toNat := by
      unfold RecordFits at h
      omega
    exact parserTurn_truncated hp hv h5 hd truncated
  · exact parserTurn_noHeader hp hv (by omega)

/-- While a record is presented no parser step is enabled (R132). -/
theorem parserFetch_of_presented {s : State} (hp : s.phase = .ies) (hv : s.ieValid = true) :
    parserFetch s = .notEnabled := by
  simp [parserFetch, ieEnabled, hp, hv]

/-- Where no mini-header is left the fetch reads no byte (R134). -/
theorem parserFetch_noHeader {s : State} (hp : s.phase = .ies) (hv : s.ieValid = false)
    (h : s.endOff.toNat - s.off.toNat < 5) : parserFetch s = .noHeader := by
  simp [parserFetch, fetchElement, ieEnabled, hp, hv, h]

/-! ### The statements -/

/-- Settles O22: the value of a whole record fits in what remains. -/
theorem ieEmitsAWholeRecord : Obligations.IeEmitsAWholeRecord := by
  intro type length instByte s hp hv h
  rw [exec_ie_eq, execIe_eq _ _ _ hp hv (by omega), if_pos (by omega)]
  rfl

/-- Settles O23, by the two ways of not being whole. -/
theorem ieNotWholeEndsTheSequence : Obligations.IeNotWholeEndsTheSequence :=
  fun type _ instByte _ hp hv h => execIe_stops type instByte hp hv h

/-- Settles O24, by the fetch and the turn where no mini-header is left. -/
theorem noMiniHeaderLeftStopsSilently : Obligations.NoMiniHeaderLeftStopsSilently :=
  fun s rest hp hv h => ⟨parserFetch_noHeader hp hv h,
    (step_parser s rest).trans (parserTurn_noHeader (s := { s with schedule := rest }) hp hv h)⟩

/-- Settles O25: the record's mini-header fits and its value does not. -/
theorem truncatedRecordIsDroppedSilently : Obligations.TruncatedRecordIsDroppedSilently :=
  fun s rest hp hv hd h5 hl =>
    (step_parser s rest).trans (parserTurn_truncated (s := { s with schedule := rest }) hp hv h5 hd hl)

/-- Settles O26: the turn emits the record at `OFF`, its view is that record, and it is presented from then on. -/
theorem ieStepEmitsTheRecordAtOff : Obligations.IeStepEmitsTheRecordAtOff := by
  intro s rest o l hp hv hd hl
  have fits : RecordFits s := hl
  exact ⟨emitAtOff { s with schedule := rest },
    (step_parser s rest).trans (parserTurn_emitAtOff (s := { s with schedule := rest }) hp hv hd fits), rfl,
    recordView_emitAtOff fits rest, parserFetch_of_presented hp rfl⟩

end Sys2Proof.Machine
end

section
/-! PROOF. O29, O30 and O31: `DecodeAll` (R130). Its loop is told once: at a whole record it gives that record and goes
on behind it, elsewhere it ends. Turns beyond one per 5 bytes change nothing (R167), and bytes before the loop's offset
are not looked at, so a record's encoding in front of other bytes puts that record in front of their decoding. -/

namespace Sys2Proof.Machine

/-! ### The loop -/

/-- The record that `DecodeAll`'s loop reads at payload offset `o` (R130), whether it is whole or not. -/
def recordAt (p : List Byte) (o : Nat) : IeRecord :=
  { type := be16At p o, length := be16At p (o + 2), inst := instanceOf (byteAt p (o + 4))
    value := slice p (o + 5) (o + 5 + (be16At p (o + 2)).toNat) }

/-- The record at payload offset `o` is whole. -/
def WholeAt (p : List Byte) (o : Nat) : Prop := o + 5 + (recordAt p o).length.toNat ≤ p.length

theorem decodeLoop_of_whole {p : List Byte} {o : Nat} (h : WholeAt p o) (n : Nat) :
    decodeLoop p (n + 1) o = recordAt p o :: decodeLoop p n (o + 5 + (recordAt p o).length.toNat) := by
  have hdr : ieHdrFits (remaining p.length o) = true := by
    unfold WholeAt at h
    rw [ieHdrFits_iff, remaining_eq]
    omega
  have value : ieValueFits (remaining p.length o) (be16At p (o + 2)).toNat = true := by
    change o + 5 + (be16At p (o + 2)).toNat ≤ p.length at h
    rw [ieValueFits_iff, remaining_eq]
    omega
  rw [decodeLoop, if_pos hdr, if_pos value]
  rfl

theorem decodeLoop_of_not_whole {p : List Byte} {o : Nat} (h : ¬ WholeAt p o) (n : Nat) : decodeLoop p n o = [] := by
  cases n with
  | zero => rfl
  | succ n =>
    rw [decodeLoop]
    split_ifs with hdr value
    · rw [ieHdrFits_iff, remaining_eq] at hdr
      rw [ieValueFits_iff, remaining_eq] at value
      change ¬ o + 5 + (be16At p (o + 2)).toNat ≤ p.length at h
      omega
    · rfl
    · rfl

/-- The loop with `m` turns, enough for what is left (R167), goes at least as far as with any other number of turns. -/
theorem decodeLoop_isPrefix {p : List Byte} (n : Nat) {m o : Nat} (h : p.length - o < 5 * (m + 1)) :
    decodeLoop p n o <+: decodeLoop p m o := by
  by_cases whole : WholeAt p o
  · have left : 5 ≤ p.length - o := by unfold WholeAt at whole; omega
    match n, m with
    | 0, _ => exact List.nil_prefix
    | _ + 1, 0 => omega
    | n + 1, m + 1 =>
      rw [decodeLoop_of_whole whole, decodeLoop_of_whole whole, List.cons_prefix_cons]
      exact ⟨rfl, decodeLoop_isPrefix n (by omega)⟩
  · rw [decodeLoop_of_not_whole whole]
    exact List.nil_prefix

theorem decodeLoop_isPrefix_decodeAll (p : List Byte) (n : Nat) : decodeLoop p n 0 <+: decodeAll p :=
  decodeLoop_isPrefix n (by omega)

theorem decodeLoop_eq_decodeAll {p : List Byte} {n : Nat} (h : p.length < 5 * (n + 1)) :
    decodeLoop p n 0 = decodeAll p :=
  (decodeLoop_isPrefix_decodeAll p n).eq_of_length_le (decodeLoop_isPrefix p.length h).length_le

/-! ### Exact values, and at most one record per 5 bytes -/

theorem recordAt_value_length {p : List Byte} {o : Nat} (h : WholeAt p o) :
    (recordAt p o).value.length = (recordAt p o).length.toNat := by
  change o + 5 + (be16At p (o + 2)).toNat ≤ p.length at h
  simp [recordAt, slice, h]

theorem decodeLoop_exact {p : List Byte} (n o : Nat) :
    ∀ r ∈ decodeLoop p n o, r.value.length = r.length.toNat := by
  induction n generalizing o with
  | zero => exact nofun
  | succ n ih =>
    by_cases whole : WholeAt p o
    · rw [decodeLoop_of_whole whole, List.forall_mem_cons]
      exact ⟨recordAt_value_length whole, ih _⟩
    · rw [decodeLoop_of_not_whole whole]
      exact nofun

theorem decodeLoop_length_le {p : List Byte} (n o : Nat) : 5 * (decodeLoop p n o).length ≤ p.length - o := by
  induction n generalizing o with
  | zero => exact Nat.zero_le _
  | succ n ih =>
    by_cases whole : WholeAt p o
    · have rest := ih (o + 5 + (recordAt p o).length.toNat)
      unfold WholeAt at whole
      rw [decodeLoop_of_whole whole, List.length_cons]
      omega
    · rw [decodeLoop_of_not_whole whole]
      exact Nat.zero_le _

/-- Settles O29, by induction over the loop's turns. -/
theorem decodeAllRecordsAreExactAndBounded : Obligations.DecodeAllRecordsAreExactAndBounded :=
  fun p => ⟨decodeLoop_exact p.length 0, decodeLoop_length_le p.length 0⟩

/-! ### Bytes before the offset -/

theorem byteAt_append (q p : List Byte) (o : Nat) : byteAt (q ++ p) (q.length + o) = byteAt p o := by
  rw [byteAt, List.getD_append_right _ _ _ _ (Nat.le_add_right ..), Nat.add_sub_cancel_left, byteAt]

theorem slice_append (q p : List Byte) (a b : Nat) : slice (q ++ p) (q.length + a) (q.length + b) = slice p a b := by
  simp [slice, List.take_append, List.drop_append]

theorem recordAt_append (q p : List Byte) (o : Nat) : recordAt (q ++ p) (q.length + o) = recordAt p o := by
  simp only [recordAt, be16At, Nat.add_assoc, byteAt_append, slice_append]

theorem wholeAt_append (q p : List Byte) (o : Nat) : WholeAt (q ++ p) (q.length + o) ↔ WholeAt p o := by
  rw [WholeAt, WholeAt, recordAt_append, List.length_append]
  omega

theorem decodeLoop_append (q p : List Byte) (n o : Nat) : decodeLoop (q ++ p) n (q.length + o) = decodeLoop p n o := by
  induction n generalizing o with
  | zero => rfl
  | succ n ih =>
    by_cases whole : WholeAt p o
    · rw [decodeLoop_of_whole whole, decodeLoop_of_whole ((wholeAt_append q p o).mpr whole), recordAt_append,
        Nat.add_assoc, Nat.add_assoc, ih, ← Nat.add_assoc]
    · rw [decodeLoop_of_not_whole whole, decodeLoop_of_not_whole (mt (wholeAt_append q p o).mp whole)]

/-! ### The encoder -/

/-- The bytes of a record on the wire (R84, R201). -/
def recordBytes (r : IeRecord) : List Byte := bytes16 r.type ++ bytes16 r.length ++ [0#4 ++ r.inst] ++ r.value

theorem encodeIe_eq_recordBytes {r : IeRecord} (h : r.value.length = r.length.toNat) :
    encodeIe r.type r.value r.inst = some (recordBytes r) := by
  have fits : r.value.length ≤ 65535 := by have := r.length.isLt; omega
  rw [encodeIe, if_pos fits, h, BitVec.ofNat_toNat, BitVec.setWidth_eq]
  rfl

@[simp] theorem recordBytes_length (r : IeRecord) : (recordBytes r).length = 5 + r.value.length := by
  simp [recordBytes, bytes16]
  omega

/-- The low nibble of the encoder's fifth byte is what the decoder takes of that byte (R85, R201). -/
theorem instanceOf_zero_append (i : BitVec 4) : instanceOf (0#4 ++ i) = i := by
  revert i
  decide

theorem recordAt_recordBytes {r : IeRecord} (h : r.value.length = r.length.toNat) (rest : List Byte) :
    recordAt (recordBytes r ++ rest) 0 = r := by
  have type : be16At (recordBytes r ++ rest) 0 = r.type := be16_fieldBytes r.type
  have length : be16At (recordBytes r ++ rest) 2 = r.length := be16_fieldBytes r.length
  have inst : instanceOf (byteAt (recordBytes r ++ rest) 4) = r.inst := instanceOf_zero_append r.inst
  have value : slice (recordBytes r ++ rest) 5 (5 + r.length.toNat) = r.value := by
    rw [← h]
    exact (slice_append [_, _, _, _, _] (r.value ++ rest) 0 r.value.length).trans List.take_left
  simp only [recordAt, Nat.zero_add, type, length, inst, value]

/-- A record's encoding in front of other bytes decodes to that record, and then to what those bytes decode to. -/
theorem decodeAll_recordBytes_append {r : IeRecord} (h : r.value.length = r.length.toNat) (rest : List Byte) :
    decodeAll (recordBytes r ++ rest) = r :: decodeAll rest := by
  have first := recordAt_recordBytes h rest
  have count : (recordBytes r ++ rest).length = 5 + r.value.length + rest.length := by
    rw [List.length_append, recordBytes_length]
  have whole : WholeAt (recordBytes r ++ rest) 0 := by
    rw [WholeAt, first, count]
    omega
  have behind : 0 + 5 + r.length.toNat = (recordBytes r).length + 0 := by
    rw [recordBytes_length]
    omega
  calc decodeAll (recordBytes r ++ rest)
      _ = decodeLoop (recordBytes r ++ rest) ((recordBytes r ++ rest).length + 1) 0 :=
        (decodeLoop_eq_decodeAll (by omega)).symm
      _ = r :: decodeLoop (recordBytes r ++ rest) (recordBytes r ++ rest).length ((recordBytes r).length + 0) := by
        rw [decodeLoop_of_whole whole, first, behind]
      _ = r :: decodeAll rest := by
        rw [decodeLoop_append, decodeLoop_eq_decodeAll (by omega)]

/-! ### Round trips -/

/-- Bytes that do not start a whole record decode to nothing (R134, R135). -/
theorem decodeAll_fragment {f : List Byte} (h : f.length < 5 ∨ f.length - 5 < (be16At f 2).toNat) :
    decodeAll f = [] := by
  refine decodeLoop_of_not_whole (fun whole => ?_) f.length
  change 0 + 5 + (be16At f 2).toNat ≤ f.length at whole
  omega

/-- Settles O31, by induction on the records: each stands in front of what follows it. -/
theorem concatenatedRecordsDecodeInOrder : Obligations.ConcatenatedRecordsDecodeInOrder := by
  intro rs f exactLengths hf
  induction rs with
  | nil => exact decodeAll_fragment hf
  | cons r rs ih =>
    obtain ⟨hr, hrs⟩ := List.forall_mem_cons.mp exactLengths
    rw [List.flatMap_cons, encodeIe_eq_recordBytes hr, Option.getD_some, List.append_assoc,
      decodeAll_recordBytes_append hr, ih hrs]

/-- Settles O30: one record with nothing behind it. -/
theorem singleRecordRoundTrip : Obligations.SingleRecordRoundTrip := by
  intro t v i hv
  have hr : v.length = (BitVec.ofNat 16 v.length).toNat := by
    rw [BitVec.toNat_ofNat]
    omega
  have decodes := decodeAll_recordBytes_append (r := ⟨t, BitVec.ofNat 16 v.length, i, v⟩) hr []
  rw [List.append_nil] at decodes
  rw [encodeIe_eq_recordBytes (r := ⟨t, BitVec.ofNat 16 v.length, i, v⟩) hr, Option.map_some, decodes]
  rfl

end Sys2Proof.Machine
end

section
/-! PROOF. O27: the host that takes every record sees `DecodeAll` of the payload (R142). A state that waits for `IESTEP`
stands at an offset of the payload, and one round of parser and `NEXT` there is one turn of `DecodeAll`'s loop. -/

namespace Sys2Proof.Machine

/-! ### States that wait for `IESTEP` -/

/-- A state with the invariant in which `IESTEP` is enabled (R132). -/
structure AwaitsRecord (s : State) : Prop where
  inv : s.Inv
  phase : s.phase = .ies
  noRecord : s.ieValid = false

theorem AwaitsRecord.withSchedule {s : State} (h : AwaitsRecord s) (turns : List Turn) :
    AwaitsRecord { s with schedule := turns } :=
  ⟨inv_of_runView_eq h.inv rfl, h.phase, h.noRecord⟩

/-- The order of the offsets while records are extracted (R164, R166). -/
theorem AwaitsRecord.offsets {s : State} (h : AwaitsRecord s) :
    8 ≤ s.hHlen.toNat ∧ s.hHlen.toNat ≤ s.off.toNat ∧ s.off.toNat ≤ s.endOff.toNat ∧
      s.endOff.toNat ≤ s.dlen.toNat := by
  obtain ⟨_, _, hhlen, _, _, hend, _, hlo, hhi, _⟩ := h.inv.inPayload (.inl h.phase)
  omega

/-! ### The record at `OFF` is the payload's record -/

theorem payload_length (s : State) : (payload s).length = s.endOff.toNat - s.hHlen.toNat := bufBytes_length ..

/-- Payload offset `OFF - H_HLEN` is buffer offset `OFF`. -/
theorem byteAt_payload {s : State} (hlo : s.hHlen.toNat ≤ s.off.toNat) {k : Nat}
    (h : s.off.toNat + k < s.endOff.toNat) :
    byteAt (payload s) (s.off.toNat - s.hHlen.toNat + k) = bufByte s (s.off.toNat + k) := by
  rw [byteAt, payload, bufBytes_getD _ _ _ _ (by omega)]
  congr 1
  omega

theorem be16At_payload {s : State} (hlo : s.hHlen.toNat ≤ s.off.toNat) {k : Nat}
    (h : s.off.toNat + (k + 1) < s.endOff.toNat) :
    be16At (payload s) (s.off.toNat - s.hHlen.toNat + k) =
      be16 (bufByte s (s.off.toNat + k)) (bufByte s (s.off.toNat + (k + 1))) := by
  rw [be16At, Nat.add_assoc, byteAt_payload hlo (by omega), byteAt_payload hlo h]

theorem recordAt_payload_length {s : State} (hlo : s.hHlen.toNat ≤ s.off.toNat)
    (h5 : 5 ≤ s.endOff.toNat - s.off.toNat) :
    (recordAt (payload s) (s.off.toNat - s.hHlen.toNat)).length = (recordAtOff s).length :=
  be16At_payload (k := 2) hlo (by omega)

theorem wholeAt_payload_iff {s : State} (h : AwaitsRecord s) :
    WholeAt (payload s) (s.off.toNat - s.hHlen.toNat) ↔ RecordFits s := by
  obtain ⟨_, hlo, hhi, _⟩ := h.offsets
  rw [WholeAt, RecordFits, payload_length]
  by_cases h5 : 5 ≤ s.endOff.toNat - s.off.toNat
  · rw [recordAt_payload_length hlo h5]
    omega
  · omega

theorem recordAt_payload {s : State} (h : AwaitsRecord s) (fits : RecordFits s) :
    recordAt (payload s) (s.off.toNat - s.hHlen.toNat) = recordAtOff s := by
  obtain ⟨_, hlo, hhi, _⟩ := h.offsets
  obtain ⟨h5, hl⟩ := fits.bounds
  have type := be16At_payload (k := 0) hlo (by omega)
  have length := be16At_payload (k := 2) hlo (by omega)
  have inst := byteAt_payload (k := 4) hlo (by omega)
  have value : slice (payload s) (s.off.toNat - s.hHlen.toNat + 5)
      (s.off.toNat - s.hHlen.toNat + 5 + (recordAtOff s).length.toNat) = (recordAtOff s).value := by
    rw [payload, bufBytes_slice _ _ _ _ _ (by omega)]
    exact congrArg₂ (bufBytes s) (by omega) (Nat.add_sub_cancel_left ..)
  simp only [recordAt, length, inst]
  exact congrArg₂ (fun t v => { recordAtOff s with type := t, value := v }) type value

/-! ### One round of parser and host -/

/-- The state after the host has taken the record at `OFF`. -/
def afterRecord (s : State) : State := takeRecord (emitAtOff { s with schedule := [] })

theorem afterTurn_of_takeTurn {u : Turn} {s t : State} (h : takeTurn u { s with schedule := [] } = .next t) :
    afterTurn u s = some t := by
  rw [afterTurn, step_withSchedule_cons, h]

/-- `NEXT` takes a presented record down (R184). -/
theorem hostTurn_next {s : State} (hv : s.ieValid = true) :
    hostTurn (.regWrite 0x00 2) s = .next (takeRecord s) := by
  rw [hostTurn_of_decode (i := .next 2) rfl]
  exact if_pos hv

theorem takeAllRecords_of_fits {s : State} (h : AwaitsRecord s) (fits : RecordFits s) (n : Nat) :
    takeAllRecords (n + 1) s =
      (recordAtOff s :: (takeAllRecords n (afterRecord s)).1, (takeAllRecords n (afterRecord s)).2) := by
  obtain ⟨_, _, _, hd⟩ := h.offsets
  have parser : afterTurn .parser s = some (emitAtOff { s with schedule := [] }) :=
    afterTurn_of_takeTurn (parserTurn_emitAtOff (s := { s with schedule := [] }) h.phase h.noRecord hd fits)
  have view : recordView (emitAtOff { s with schedule := [] }) = some (recordAtOff s) :=
    recordView_emitAtOff fits []
  have next : afterTurn (.host (.regWrite 0x00 2)) (emitAtOff { s with schedule := [] }) = some (afterRecord s) :=
    afterTurn_of_takeTurn (hostTurn_next rfl)
  simp only [takeAllRecords, parser, view, next]

theorem takeAllRecords_of_not_fits {s : State} (h : AwaitsRecord s) (fits : ¬ RecordFits s) (n : Nat) :
    takeAllRecords (n + 1) s = ([], stopExtraction { s with schedule := [] }) := by
  obtain ⟨_, _, _, hd⟩ := h.offsets
  have parser : afterTurn .parser s = some (stopExtraction { s with schedule := [] }) :=
    afterTurn_of_takeTurn (parserTurn_stop (s := { s with schedule := [] }) h.phase h.noRecord hd fits)
  have view : recordView (stopExtraction { s with schedule := [] }) = none := by
    simp [recordView, h.noRecord]
  simp only [takeAllRecords, parser, view]

theorem afterRecord_awaitsRecord {s : State} (h : AwaitsRecord s) (fits : RecordFits s) :
    AwaitsRecord (afterRecord s) := by
  obtain ⟨h5, hl⟩ := fits.bounds
  have emitted : (emitAtOff { s with schedule := [] }).Inv :=
    emitRecord_inv (s := { s with schedule := [] }) _ _ (h.withSchedule []).inv h.phase h5 hl
  exact ⟨takeRecord_inv emitted rfl, h.phase, rfl⟩

theorem afterRecord_off_toNat {s : State} (fits : RecordFits s) :
    (afterRecord s).off.toNat = s.off.toNat + 5 + (recordAtOff s).length.toNat := by
  obtain ⟨h5, hl⟩ := fits.bounds
  exact emitRecord_off_toNat (s := s) (recordAtOff s).type (recordAtOff s).inst h5 hl

theorem afterRecord_ieCount_toNat {s : State} (h : AwaitsRecord s) :
    (afterRecord s).ieCount.toNat = s.ieCount.toNat + 1 :=
  emitRecord_ieCount_toNat (recordAtOff s).type (recordAtOff s).length (recordAtOff s).inst (h.withSchedule []).inv
    h.phase

@[simp] theorem afterRecord_hHlen (s : State) : (afterRecord s).hHlen = s.hHlen := rfl
@[simp] theorem afterRecord_endOff (s : State) : (afterRecord s).endOff = s.endOff := rfl

@[simp] theorem payload_afterRecord (s : State) : payload (afterRecord s) = payload s :=
  bufBytes_congr (s := afterRecord s) (t := s) rfl rfl _ _

/-! ### The whole run -/

/-- Round by round the host sees what `DecodeAll`'s loop gives turn by turn (R142). -/
theorem takeAllRecords_records {s : State} (h : AwaitsRecord s) (n : Nat) :
    (takeAllRecords n s).1 = decodeLoop (payload s) n (s.off.toNat - s.hHlen.toNat) := by
  induction n generalizing s with
  | zero => rfl
  | succ n ih =>
    by_cases fits : RecordFits s
    · have ⟨_, hlo, _⟩ := h.offsets
      have next : (afterRecord s).off.toNat - s.hHlen.toNat =
          s.off.toNat - s.hHlen.toNat + 5 + (recordAtOff s).length.toNat := by
        rw [afterRecord_off_toNat fits]
        omega
      rw [takeAllRecords_of_fits h fits, decodeLoop_of_whole ((wholeAt_payload_iff h).mpr fits),
        recordAt_payload h fits, ih (afterRecord_awaitsRecord h fits), payload_afterRecord, afterRecord_hHlen, next]
    · rw [takeAllRecords_of_not_fits h fits, decodeLoop_of_not_whole (mt (wholeAt_payload_iff h).mp fits)]

/-- `IE_COUNT` counts the records the host saw (R39, R132). -/
theorem takeAllRecords_ieCount {s : State} (h : AwaitsRecord s) (n : Nat) :
    (takeAllRecords n s).2.ieCount.toNat = s.ieCount.toNat + (takeAllRecords n s).1.length := by
  induction n generalizing s with
  | zero => rfl
  | succ n ih =>
    by_cases fits : RecordFits s
    · have rest := ih (afterRecord_awaitsRecord h fits)
      rw [afterRecord_ieCount_toNat h] at rest
      rw [takeAllRecords_of_fits h fits, List.length_cons, rest]
      omega
    · rw [takeAllRecords_of_not_fits h fits]
      rfl

/-- A record takes at least 5 bytes, so a round per 5 bytes and one more brings the run to its end (R167, R192). -/
theorem takeAllRecords_done {s : State} (h : AwaitsRecord s) {n : Nat} (hn : s.endOff.toNat - s.off.toNat < 5 * n) :
    (takeAllRecords n s).2.phase = .done := by
  induction n generalizing s with
  | zero => omega
  | succ n ih =>
    by_cases fits : RecordFits s
    · obtain ⟨h5, _⟩ := fits.bounds
      rw [takeAllRecords_of_fits h fits]
      refine ih (afterRecord_awaitsRecord h fits) ?_
      rw [afterRecord_off_toNat fits, afterRecord_endOff]
      omega
    · rw [takeAllRecords_of_not_fits h fits]
      rfl

/-- Settles O27: the run starts at payload offset 0, and 13106 rounds are enough for every payload. -/
theorem hostSeesExactlyDecodeAll : Obligations.HostSeesExactlyDecodeAll := by
  intro s inv hp hv hoff hcount
  have awaits : AwaitsRecord s := ⟨inv, hp, hv⟩
  have seen (n : Nat) : (takeAllRecords n s).1 = decodeLoop (payload s) n 0 := by
    rw [takeAllRecords_records awaits, hoff, Nat.sub_self]
  have ⟨hhdr, _⟩ := awaits.offsets
  have hwidth := s.endOff.isLt
  have all : (takeAllRecords 13106 s).1 = decodeAll (payload s) := by
    rw [seen, decodeLoop_eq_decodeAll (by rw [payload_length]; omega)]
  refine ⟨all, takeAllRecords_done awaits (by omega), ?_, fun n => ?_⟩
  · rw [takeAllRecords_ieCount awaits, all, hcount]
    exact Nat.zero_add _
  · rw [seen]
    exact decodeLoop_isPrefix_decodeAll ..

end Sys2Proof.Machine
end

section
/-! PROOF. O6: each length function is the arithmetic of its rule (R150 to R160, R168). -/

namespace Sys2Proof.Machine

/-- A value fits exactly where its record ends at or before `END` (R158), its mini-header being whole. -/
theorem ieValueFits_remaining_iff {e o l : Nat} (h : 5 ≤ remaining e o) :
    ieValueFits (remaining e o) l = true ↔ o + 5 + l ≤ e := by
  rw [ieValueFits_iff]
  rw [remaining_eq] at h ⊢
  omega

/-- Settles O6, by the equation of each function. -/
theorem lengthFunctionsAreTheRulesArithmetic : Obligations.LengthFunctionsAreTheRulesArithmetic :=
  ⟨⟨hdrLen_false, hdrLen_true⟩, fun _ => short8_iff, fun _ _ => short16_iff, fun _ _ => badLen_iff,
    payloadEnd_eq Config.lenBias, fun _ _ => Nat.sub_add_cancel, fun _ _ => clamped_iff,
    fun _ _ => Nat.sub_add_cancel, fun _ => ieHdrFits_iff, fun _ _ _ => ieValueFits_remaining_iff, valueOff_eq,
    nextOff_eq⟩

end Sys2Proof.Machine
end

section
/-! PROOF. O12: the parser reads inside the datagram (R65, R162, R166). What a fetch can give is said once
(`ParserFetches`), each case with the tests and the bytes that decide it. A claim that other bytes of `BUF` do not
matter is then that the same case holds with them. -/

namespace Sys2Proof.Machine

/-! ### What a fetch gives -/

/-- What the parser's fetch gives in a state, and when. -/
inductive ParserFetches (s : State) : Fetched → Prop
  | notEnabled : s.phase ≠ .hdr → ieEnabled s = false → ParserFetches s .notEnabled
  | short8 : s.phase = .hdr → s.dlen.toNat < 8 → ParserFetches s (.short .short8)
  | short16 : s.phase = .hdr → 8 ≤ s.dlen.toNat → s.dlen.toNat < 16 → sessionBit (bufByte s 0) = true →
      ParserFetches s (.short .short16)
  | header : s.phase = .hdr → hdrLen (sessionBit (bufByte s 0)) ≤ s.dlen.toNat →
      ParserFetches s (.record (.header (bufBytes s 0 (hdrLen (sessionBit (bufByte s 0))))))
  | noHeader : s.phase = .ies → s.ieValid = false → s.endOff.toNat - s.off.toNat < 5 → ParserFetches s .noHeader
  | element : s.phase = .ies → s.ieValid = false → 5 ≤ s.endOff.toNat - s.off.toNat →
      s.off.toNat + 5 ≤ s.dlen.toNat → ParserFetches s (.record (.element (bufBytes s s.off.toNat 5)))
  | undefined : s.phase = .ies → s.ieValid = false → 5 ≤ s.endOff.toNat - s.off.toNat →
      s.dlen.toNat < s.off.toNat + 5 → ParserFetches s .undefined

theorem parserFetch_of_hdr {s : State} (hp : s.phase = .hdr) : parserFetch s = fetchHeader s := if_pos hp

theorem parserFetch_of_ieEnabled {s : State} (hp : s.phase = .ies) (hv : s.ieValid = false) :
    parserFetch s = fetchElement s := by
  rw [parserFetch, if_neg (by simp [hp]), if_pos (ieEnabled_iff.mpr ⟨hp, hv⟩)]

theorem fetchHeader_short8 {s : State} (h : s.dlen.toNat < 8) : fetchHeader s = .short .short8 :=
  if_pos (short8_iff.mpr h)

theorem fetchHeader_short16 {s : State} (h8 : 8 ≤ s.dlen.toNat) (h : s.dlen.toNat < 16)
    (hs : sessionBit (bufByte s 0) = true) : fetchHeader s = .short .short16 := by
  simp [fetchHeader, h8, h, hs]

theorem fetchHeader_whole {s : State} (h : hdrLen (sessionBit (bufByte s 0)) ≤ s.dlen.toNat) :
    fetchHeader s = .record (.header (bufBytes s 0 (hdrLen (sessionBit (bufByte s 0))))) := by
  obtain ⟨h8, h16⟩ := short_false_of_hdrLen_le h
  have inBuffer : hdrLen (sessionBit (bufByte s 0)) ≤ 65536 := by
    cases sessionBit (bufByte s 0) <;> decide
  have read : memRead s 0 (hdrLen (sessionBit (bufByte s 0))) =
      some (bufBytes s 0 (hdrLen (sessionBit (bufByte s 0)))) :=
    memRead_some.mpr ⟨⟨by rwa [Nat.zero_add], by rwa [Nat.zero_add]⟩, rfl⟩
  simp [fetchHeader, h8, h16, read]

theorem fetchElement_whole {s : State} (h5 : 5 ≤ s.endOff.toNat - s.off.toNat) (h : s.off.toNat + 5 ≤ s.dlen.toNat) :
    fetchElement s = .record (.element (bufBytes s s.off.toNat 5)) := by
  have width := s.endOff.isLt
  have read : memRead s s.off.toNat Config.ieHdr = some (bufBytes s s.off.toNat 5) :=
    memRead_some.mpr ⟨⟨h, by simp only [Config.ieHdr]; omega⟩, rfl⟩
  simp [fetchElement, h5, read]

theorem fetchElement_undefined {s : State} (h5 : 5 ≤ s.endOff.toNat - s.off.toNat)
    (h : s.dlen.toNat < s.off.toNat + 5) : fetchElement s = .undefined := by
  have read : memRead s s.off.toNat Config.ieHdr = none := if_neg (by simp only [Config.ieHdr]; omega)
  simp [fetchElement, h5, read]

theorem ParserFetches.eq {s : State} {r : Fetched} (h : ParserFetches s r) : parserFetch s = r := by
  cases h with
  | notEnabled hp he => rw [parserFetch, if_neg hp, if_neg (Bool.eq_false_iff.mp he)]
  | short8 hp hd => exact (parserFetch_of_hdr hp).trans (fetchHeader_short8 hd)
  | short16 hp h8 hd hs => exact (parserFetch_of_hdr hp).trans (fetchHeader_short16 h8 hd hs)
  | header hp hd => exact (parserFetch_of_hdr hp).trans (fetchHeader_whole hd)
  | noHeader hp hv h5 => exact parserFetch_noHeader hp hv h5
  | element hp hv h5 hd => exact (parserFetch_of_ieEnabled hp hv).trans (fetchElement_whole h5 hd)
  | undefined hp hv h5 hd => exact (parserFetch_of_ieEnabled hp hv).trans (fetchElement_undefined h5 hd)

theorem exists_parserFetches (s : State) : ∃ r, ParserFetches s r := by
  by_cases hp : s.phase = .hdr
  · by_cases h8 : s.dlen.toNat < 8
    · exact ⟨_, .short8 hp h8⟩
    · by_cases whole : hdrLen (sessionBit (bufByte s 0)) ≤ s.dlen.toNat
      · exact ⟨_, .header hp whole⟩
      · cases hs : sessionBit (bufByte s 0) with
        | true =>
          rw [hs, hdrLen_true] at whole
          exact ⟨_, .short16 hp (by omega) (by omega) hs⟩
        | false =>
          rw [hs, hdrLen_false] at whole
          omega
  · cases he : ieEnabled s with
    | false => exact ⟨_, .notEnabled hp he⟩
    | true =>
      obtain ⟨hi, hv⟩ := ieEnabled_iff.mp he
      by_cases h5 : 5 ≤ s.endOff.toNat - s.off.toNat
      · by_cases hd : s.off.toNat + 5 ≤ s.dlen.toNat
        · exact ⟨_, .element hi hv h5 hd⟩
        · exact ⟨_, .undefined hi hv h5 (by omega)⟩
      · exact ⟨_, .noHeader hi hv (by omega)⟩

theorem parserFetch_eq_iff {s : State} {r : Fetched} : parserFetch s = r ↔ ParserFetches s r := by
  refine ⟨fun h => ?_, ParserFetches.eq⟩
  obtain ⟨r', h'⟩ := exists_parserFetches s
  rwa [← h, h'.eq]

/-! ### The fetch stays inside the datagram -/

theorem parserFetch_header_bounds {s : State} {bs : List Byte} (h : parserFetch s = .record (.header bs)) :
    bs = bufBytes s 0 bs.length ∧ (bs.length = 8 ∨ bs.length = 16) ∧ bs.length ≤ s.dlen.toNat := by
  cases parserFetch_eq_iff.mp h with
  | header _ hd =>
    rw [bufBytes_length]
    refine ⟨rfl, ?_, hd⟩
    cases sessionBit (bufByte s 0) with
    | false => exact .inl rfl
    | true => exact .inr rfl

theorem parserFetch_element_bounds {s : State} {bs : List Byte} (inv : s.Inv)
    (h : parserFetch s = .record (.element bs)) :
    bs = bufBytes s s.off.toNat 5 ∧ s.off.toNat + 4 ≤ s.endOff.toNat - 1 ∧
      s.endOff.toNat - 1 ≤ s.dlen.toNat - 1 ∧ s.off.toNat + 4 < s.dlen.toNat ∧ s.off.toNat + 4 ≤ 65534 := by
  cases parserFetch_eq_iff.mp h with
  | element hp hv h5 hd =>
    obtain ⟨_, _, _, hend⟩ := AwaitsRecord.offsets ⟨inv, hp, hv⟩
    have width := s.endOff.isLt
    exact ⟨rfl, by omega, by omega, by omega, by omega⟩

/-! ### Bytes that do not matter -/

/-- SHORT8 reads no byte, and SHORT16 the flags byte alone (R151, R152). -/
theorem parserFetch_short_reads {s : State} {c : ErrCode} (h : parserFetch s = .short c) :
    (c = .short8 ∧ s.dlen.toNat < 8 ∧
      ∀ (m : Memory) (n : Nat), parserFetch { s with buf := m, epoch := n } = .short .short8) ∨
    (c = .short16 ∧ 8 ≤ s.dlen.toNat ∧ s.dlen.toNat < 16 ∧ sessionBit (bufByte s 0) = true ∧
      ∀ (m : Memory) (n : Nat), sessionBit (bufByte { s with buf := m, epoch := n } 0) = true →
        parserFetch { s with buf := m, epoch := n } = .short .short16) := by
  cases parserFetch_eq_iff.mp h with
  | short8 hp hd => exact .inl ⟨rfl, hd, fun _ _ => ParserFetches.eq (.short8 hp hd)⟩
  | short16 hp h8 hd hs => exact .inr ⟨rfl, h8, hd, hs, fun _ _ hs' => ParserFetches.eq (.short16 hp h8 hd hs')⟩

theorem parserFetch_noHeader_reads {s : State} (h : parserFetch s = .noHeader) (m : Memory) (n : Nat) :
    parserFetch { s with buf := m, epoch := n } = .noHeader := by
  cases parserFetch_eq_iff.mp h with
  | noHeader hp hv h5 => exact ParserFetches.eq (.noHeader hp hv h5)

theorem bufBytes_eq_of_forall {s t : State} (n : Nat) {a : Nat}
    (h : ∀ x, x < a + n → bufByte s x = bufByte t x) : bufBytes s a n = bufBytes t a n := by
  induction n generalizing a with
  | zero => rfl
  | succ n ih => rw [bufBytes, bufBytes, h a (by omega), ih fun x hx => h x (by omega)]

/-- Every case of the fetch is decided by bytes below `DLEN` and gives bytes below `DLEN`. -/
theorem ParserFetches.of_agree {s : State} {r : Fetched} {m : Memory} {n : Nat} (f : ParserFetches s r)
    (h : ∀ a, a < s.dlen.toNat → bufByte { s with buf := m, epoch := n } a = bufByte s a) :
    ParserFetches { s with buf := m, epoch := n } r := by
  have bytes {a k : Nat} (hk : a + k ≤ s.dlen.toNat) :
      bufBytes { s with buf := m, epoch := n } a k = bufBytes s a k :=
    bufBytes_eq_of_forall k fun x hx => h x (by omega)
  cases f with
  | notEnabled hp he => exact .notEnabled hp he
  | short8 hp hd => exact .short8 hp hd
  | short16 hp h8 hd hs => exact .short16 hp h8 hd (by rwa [h 0 (by omega)])
  | header hp hd =>
    have flags := h 0 (by rw [hdrLen_eq] at hd; omega)
    rw [← bytes (by rwa [Nat.zero_add]), ← flags]
    exact .header hp (by rwa [flags])
  | noHeader hp hv h5 => exact .noHeader hp hv h5
  | element hp hv h5 hd =>
    rw [← bytes hd]
    exact .element hp hv h5 hd
  | undefined hp hv h5 hd => exact .undefined hp hv h5 hd

theorem parserFetch_eq_of_agree {s : State} {m : Memory} {n : Nat}
    (h : ∀ a, a < s.dlen.toNat → bufByte { s with buf := m, epoch := n } a = bufByte s a) :
    parserFetch { s with buf := m, epoch := n } = parserFetch s :=
  ((parserFetch_eq_iff.mp rfl).of_agree h).eq

/-! ### No step stops -/

theorem exists_parserTurn_next {s : State} (inv : s.Inv) : ∃ t, parserTurn s = .next t := by
  by_cases hp : s.phase = .hdr
  · exact ⟨_, parserTurn_decodeHeader hp⟩
  · cases he : ieEnabled s with
    | false => exact ⟨_, parserTurn_notEnabled hp he⟩
    | true =>
      obtain ⟨hi, hv⟩ := ieEnabled_iff.mp he
      obtain ⟨_, _, _, hend⟩ := AwaitsRecord.offsets ⟨inv, hi, hv⟩
      by_cases fits : RecordFits s
      · exact ⟨_, parserTurn_emitAtOff hi hv hend fits⟩
      · exact ⟨_, parserTurn_stop hi hv hend fits⟩

theorem exists_takeTurn_next {s : State} (inv : s.Inv) (u : Turn) : ∃ t, takeTurn u s = .next t := by
  cases u with
  | parser => exact exists_parserTurn_next inv
  | host a =>
    obtain ⟨t, h, _⟩ := hostTurn_effect a s
    exact ⟨t, h⟩
  | label f v => exact ⟨s, labelTurn_eq f v s⟩
  | reset => exact ⟨_, rfl⟩

theorem exists_step_next {s : State} (inv : s.Inv) : ∃ t, step s = .next t := by
  cases hs : s.schedule with
  | nil =>
    rw [step_nil hs]
    exact exists_parserTurn_next inv
  | cons u rest =>
    rw [step_cons hs]
    exact exists_takeTurn_next (s := { s with schedule := rest }) (inv_of_runView_eq inv rfl) u

/-- The value of a presented record lies inside the payload (R52(e), R164). -/
theorem presented_value_bounds {s : State} (inv : s.Inv) (hv : s.ieValid = true) :
    s.ieVoff.toNat + s.ieLen.toNat ≤ s.endOff.toNat ∧ s.endOff.toNat ≤ s.dlen.toNat := by
  obtain ⟨hp, hvalue, _, _⟩ := inv.presented hv
  obtain ⟨_, _, _, _, _, hend, _, _, hoff, _⟩ := inv.inPayload (.inl hp)
  omega

/-- Settles O12, by the cases of the fetch and by the turns that a step takes. -/
theorem parserReadsStayInsideTheDatagram : Obligations.ParserReadsStayInsideTheDatagram :=
  fun _ inv => ⟨exists_step_next inv, fun _ => parserFetch_header_bounds, fun _ => parserFetch_element_bounds inv,
    fun _ => parserFetch_short_reads, parserFetch_noHeader_reads, fun _ _ => parserFetch_eq_of_agree,
    presented_value_bounds inv⟩

end Sys2Proof.Machine
end

section
/-! PROOF. O49: the moves of `OFF` (R161). Of all steps that do not lead to IDLE a successful `HDRSTEP` and an emitting
`IESTEP` alone write another value to it: until `HDRSTEP` it is 0, and `HDRSTEP`'s failure writes 0 again. -/

namespace Sys2Proof.Machine

/-- `OFF` moves forward or not at all, in one of the three ways of R161. -/
def OffMoves (s t : State) : Prop :=
  s.off.toNat ≤ t.off.toNat ∧
  (t.off = s.off ∨ (s.phase = .hdr ∧ t.phase = .ies ∧ t.off.toNat = 8 + 8 * t.hS.toNat) ∨
    (s.phase = .ies ∧ s.ieValid = false ∧ t.ieValid = true ∧ t.off.toNat = s.off.toNat + 5 + t.ieLen.toNat))

theorem offMoves_of_eq {s t : State} (h : t.off = s.off) : OffMoves s t :=
  ⟨Nat.le_of_eq (congrArg BitVec.toNat h.symm), .inl h⟩

theorem writeHeader_ok_off_toNat {f : HeaderFields} (hf : f.Shaped) (payEnd : Nat) (clamp : Bool) (s : State) :
    (writeHeader (.ok f f.hlen payEnd clamp) s).off.toNat = 8 + 8 * f.s.toNat := by
  change (BitVec.ofNat 16 f.hlen).toNat = _
  rw [hf.hlen, hdrLen_eq]
  cases f.s <;> rfl

theorem writeHeader_judgeHeader_offMoves {s : State} {f : HeaderFields} (hf : f.Shaped) (hp : s.phase = .hdr)
    (hoff : s.off = 0) (bias n : Nat) : OffMoves s (writeHeader (judgeHeader bias n f) s) := by
  rcases judgeHeader_cases bias n f with ⟨_, e⟩ | ⟨_, _, _, e⟩ | ⟨_, _, _, e⟩ | ⟨_, _, _, e⟩ <;> rw [e]
  · exact offMoves_of_eq hoff.symm
  · exact offMoves_of_eq hoff.symm
  · exact offMoves_of_eq hoff.symm
  · refine ⟨?_, .inr (.inl ⟨hp, rfl, writeHeader_ok_off_toNat hf ..⟩)⟩
    rw [hoff]
    exact Nat.zero_le _

theorem ParserEffect.offMoves {s t : State} (e : ParserEffect s t) (inv : s.Inv) : OffMoves s t := by
  cases e with
  | none | stop => exact offMoves_of_eq rfl
  | header f hp hf =>
    obtain ⟨hoff, _⟩ := inv.beforeHeader (.inr hp)
    exact writeHeader_judgeHeader_offMoves hf hp hoff ..
  | emit b4 l t hp hv h5 hl =>
    have hoff := emitRecord_off_toNat t (instanceOf b4) h5 hl
    exact ⟨by omega, .inr (.inr ⟨hp, hv, rfl, hoff⟩)⟩

theorem HostEffect.offMoves {s t : State} {a : HostAccess} (e : HostEffect s a t) (ht : t.phase ≠ .idle) :
    OffMoves s t := by
  cases e with
  | clear => exact absurd rfl ht
  | reject | nop | start | take | load | setlen | readRegister | readBuffer => exact offMoves_of_eq rfl

theorem TurnEffect.offMoves {s t : State} {u : Turn} (e : TurnEffect s u t) (inv : s.Inv) (ht : t.phase ≠ .idle) :
    OffMoves s t := by
  cases e with
  | parser e => exact e.offMoves inv
  | host e => exact e.offMoves ht
  | label => exact offMoves_of_eq rfl
  | reset => exact absurd rfl ht

/-- Settles O49, by what a step can do to `OFF`. -/
theorem offMovesForwardInThreeWays : Obligations.OffMovesForwardInThreeWays := by
  intro s t inv hs ht
  rcases step_effect hs with ⟨_, e⟩ | ⟨_, _, _, e⟩
  · exact e.offMoves inv
  · exact e.offMoves (inv_of_runView_eq inv rfl) ht

end Sys2Proof.Machine
end

section
/-! PROOF. O35 to O45: the host's commands and reads (R181 to R190). Each command is the operation of its rule where the
rule accepts it and `rejectAccess` where it does not; which accesses are rejected is read off `HostEffect`. -/

namespace Sys2Proof.Machine

/-! ### `LOAD` -/

theorem exec_load_idle {s : State} (hp : s.phase = .idle) (a : BitVec 16) (b : Byte) :
    exec (.load a b) s = .next (memWrite a b s) := if_pos hp

theorem put_cons_of_lt {x a : Nat} (h : x < a) (b v : Byte) (m : Memory) :
    Memory.put ((a, b) :: m) x v = (x, v) :: (a, b) :: m := if_pos h

theorem put_cons_self (a : Nat) (b v : Byte) (m : Memory) : Memory.put ((a, b) :: m) a v = (a, v) :: m := by
  rw [Memory.put, if_neg (Nat.lt_irrefl a), if_pos rfl]

theorem put_cons_of_gt {x a : Nat} (h : a < x) (b v : Byte) (m : Memory) :
    Memory.put ((a, b) :: m) x v = (a, b) :: m.put x v := by
  rw [Memory.put, if_neg (Nat.lt_asymm h), if_neg (Nat.ne_of_gt h)]

/-- Writes at different offsets commute: each goes to its own place in the rising order. -/
theorem put_put_comm (m : Memory) {x y : Nat} (v w : Byte) (h : x ≠ y) :
    (m.put x v).put y w = (m.put y w).put x v := by
  wlog hxy : x < y generalizing x y v w
  · exact (this w v h.symm (by omega)).symm
  induction m with
  | nil => exact (put_cons_of_gt hxy v w []).trans (put_cons_of_lt hxy w v []).symm
  | cons c m ih =>
    obtain ⟨a, b⟩ := c
    rcases Nat.lt_trichotomy x a with hx | rfl | hx
    · rw [put_cons_of_lt hx, put_cons_of_gt hxy]
      rcases Nat.lt_trichotomy y a with hy | rfl | hy
      · rw [put_cons_of_lt hy, put_cons_of_lt hxy]
      · rw [put_cons_self, put_cons_of_lt hxy]
      · rw [put_cons_of_gt hy, put_cons_of_lt hx]
    · rw [put_cons_self, put_cons_of_gt hxy, put_cons_of_gt hxy, put_cons_self]
    · rw [put_cons_of_gt hx, put_cons_of_gt (hx.trans hxy), put_cons_of_gt (hx.trans hxy), put_cons_of_gt hx, ih]

/-- The later of two writes at one offset is kept. -/
theorem put_put_same (m : Memory) (x : Nat) (v w : Byte) : (m.put x v).put x w = m.put x w := by
  induction m with
  | nil => exact put_cons_self x v w []
  | cons c m ih =>
    obtain ⟨a, b⟩ := c
    rcases Nat.lt_trichotomy x a with hx | rfl | hx
    · rw [put_cons_of_lt hx, put_cons_of_lt hx, put_cons_self]
    · rw [put_cons_self, put_cons_self, put_cons_self]
    · rw [put_cons_of_gt hx, put_cons_of_gt hx, put_cons_of_gt hx, ih]

theorem memWrite_memWrite_comm {a a' : BitVec 16} (b b' : Byte) (s : State) (h : a ≠ a') :
    memWrite a' b' (memWrite a b s) = memWrite a b (memWrite a' b' s) :=
  congrArg (fun m => { s with buf := m }) (put_put_comm s.buf b b' (mt BitVec.eq_of_toNat_eq h))

theorem memWrite_memWrite_same (a : BitVec 16) (b b' : Byte) (s : State) :
    memWrite a b' (memWrite a b s) = memWrite a b' s :=
  congrArg (fun m => { s with buf := m }) (put_put_same s.buf a.toNat b b')

/-- Settles O35: in IDLE `LOAD` is the write of its byte, which no other offset sees. -/
theorem loadStoresOneByteInIdle : Obligations.LoadStoresOneByteInIdle :=
  fun a b s => ⟨fun hp => ⟨memWrite a b s, exec_load_idle hp a b, rfl, bufByte_memWrite_same a b s,
    fun _ hx => bufByte_memWrite_other a b s hx⟩, fun hp => if_neg hp⟩

/-- Settles O36: writes of the memory at different offsets commute, and the later of two at one offset is kept. -/
theorem loadOrderIsFreeAndLastLoadWins : Obligations.LoadOrderIsFreeAndLastLoadWins := by
  intro a a' b b' s t u _ hp ht hu
  cases (exec_load_idle hp a b).symm.trans ht
  cases (exec_load_idle hp a' b').symm.trans hu
  refine ⟨fun hne => ?_, ?_⟩
  · rw [exec_load_idle (s := memWrite a b s) hp, exec_load_idle (s := memWrite a' b' s) hp,
      memWrite_memWrite_comm b b' s hne]
  · rw [exec_load_idle (s := memWrite a b s) hp, exec_load_idle hp, memWrite_memWrite_same]

/-! ### `SETLEN`, `START`, `NEXT`, `CLEAR` and `NOP` -/

theorem setDlen_dlen_toNat {n : Nat} (hn : n ≤ 65536) (s : State) : (setDlen n s).dlen.toNat = n :=
  Nat.mod_eq_of_lt (by omega)

/-- Settles O37: `SETLEN` asks for IDLE and for a number within the capacity, at once. -/
theorem setlenSetsDlenUpToTheCapacity : Obligations.SetlenSetsDlenUpToTheCapacity := by
  intro n s
  refine ⟨rfl, fun hp hn => ⟨setDlen n.toNat s, if_pos ⟨hp, hn⟩, rfl, setDlen_dlen_toNat hn s⟩, fun h => if_neg ?_⟩
  rintro ⟨hp, hn⟩
  change n.toNat ≤ 65536 at hn
  exact h.elim (absurd hp) (by omega)

/-- In IDLE the header result is that of reset (R52(b)). -/
theorem headerView_of_resultsClear {s : State} (h : resultsClear s) : headerView s = headerView State.reset := by
  obtain ⟨hoff, hend, hvalid, ⟨hver, hs, htype, hlen, hseid, hseq, hhlen, hplen⟩, _, _, _, herr, hclamp⟩ := h
  simp only [headerView, hoff, hend, hvalid, hver, hs, htype, hlen, hseid, hseq, hhlen, hplen, herr, hclamp]
  rfl

/-- Bit 10 of `STATUS` is `BUSY` (R44). -/
theorem status_getLsbD_busy (s : State) : (status s).getLsbD 10 = busy s := by
  simp only [status, BitVec.getLsbD_append]
  simp

/-- Settles O38: in IDLE `START` writes PHASE alone, all results being clear there. -/
theorem startOpensARunInIdle : Obligations.StartOpensARunInIdle := by
  intro v s
  refine ⟨fun hv => congrArg Except.ok (decodeCommand_of_bits1 hv),
    fun hp => ⟨if_pos hp, (status_getLsbD_busy _).trans rfl, fun inv => ?_⟩, fun hp => if_neg hp⟩
  have clear : resultsClear s := inv.beforeHeader (.inl hp)
  have ⟨_, _, _, _, hrecord, hfields, hcount, _⟩ := clear
  exact ⟨headerView_of_resultsClear clear, hrecord, hfields, hcount⟩

/-- Settles O39: `NEXT` takes the presented record down, and the phase is IES while one is presented (R52(e)). -/
theorem nextReleasesThePresentedRecord : Obligations.NextReleasesThePresentedRecord := by
  intro v s
  refine ⟨fun hv => congrArg Except.ok (decodeCommand_of_bits2 hv), fun hv => ⟨if_pos hv, fun inv => ?_⟩,
    fun hv => if_neg (Bool.eq_false_iff.mp hv)⟩
  obtain ⟨hp, _⟩ := inv.presented hv
  exact (busy_iff _).mpr (.inr ⟨hp, rfl⟩)

/-- Settles O40: `CLEAR` is `clearRun` in every phase, which writes each reset value. -/
theorem clearIsResetButForBufDlenProto : Obligations.ClearIsResetButForBufDlenProto :=
  fun _ _ => ⟨fun hv => congrArg Except.ok (decodeCommand_of_bits3 hv), rfl⟩

/-- Settles O41: `NOP` answers the state it is given. -/
theorem nopDoesNothing : Obligations.NopDoesNothing :=
  fun _ _ => ⟨fun hv => congrArg Except.ok (decodeCommand_of_bits0 hv), rfl⟩

/-! ### Reads -/

/-- `CMD` and every number that R46 does not assign read 0. -/
theorem readRegister_unassigned (s : State) {k : Nat} (h : k = 0x00 ∨ 0x05 ≤ k ∧ k ≤ 0x07 ∨ 0x15 ≤ k) :
    readRegister s k = 0 := by
  unfold readRegister
  split
  case h_18 => rfl
  all_goals omega

/-- Settles O42, register by register: zero extension keeps the value. -/
theorem rdregReturnsTheRegisterZeroExtended : Obligations.RdregReturnsTheRegisterZeroExtended := by
  intro k s
  refine ⟨readRegister s k, rfl, ?_, ?_, ?_, ?_, ?_, ?_, ?_, ?_, ?_, ?_, ?_, ?_, ?_, ?_, ?_, ?_, ?_,
    readRegister_unassigned s⟩
  all_goals
    rintro rfl
    simp only [readRegister, BitVec.toNat_setWidth_of_le, BitVec.toNat_ofBool, Nat.reduceLeDiff]

/-- Settles O43: `RDBUF` answers `BUF[a]`, the loaded byte where there is one. -/
theorem rdbufReturnsTheByte : Obligations.RdbufReturnsTheByte :=
  fun a s => ⟨bufByte s a.toNat, rfl, rfl, fun c hc => by rw [bufByte, hc, Option.getD_some],
    fun hc => by rw [bufByte, hc, Option.getD_none]⟩

/-! ### Rejected accesses -/

theorem HostEffect.eq_rejectAccess {s t : State} {a : HostAccess} (e : HostEffect s a t) (h : accessRejected s a) :
    t = rejectAccess s := by
  cases e with
  | reject => rfl
  | nop hv => simp [accessRejected, hv] at h
  | start hv hp => simp [accessRejected, hv, hp] at h
  | take hv hr => simp [accessRejected, hv, hr] at h
  | clear hv => simp [accessRejected, hv] at h
  | load hp => exact absurd hp h
  | setlen hp hn => exact Or.elim h (absurd hp) fun hlt => absurd hlt (Nat.not_lt.mpr hn)
  | readRegister => exact h.elim
  | readBuffer => exact h.elim

theorem HostEffect.proto_eq {s t : State} {a : HostAccess} (e : HostEffect s a t) (h : ¬ accessRejected s a) :
    t.proto = s.proto := by
  cases e with
  | reject hr => exact absurd hr h
  | nop | start | take | clear | load | setlen | readRegister | readBuffer => rfl

/-- A rejected access changes `PROTO` alone (R190). -/
theorem hostTurn_of_accessRejected {s : State} {a : HostAccess} (h : accessRejected s a) :
    hostTurn a s = .next (rejectAccess s) := by
  obtain ⟨t, ht, e⟩ := hostTurn_effect a s
  rw [ht, e.eq_rejectAccess h]

@[simp] theorem writeHeader_proto (r : HeaderResult) (s : State) : (writeHeader r s).proto = s.proto := by
  cases r <;> rfl

theorem ParserEffect.proto_eq {s t : State} (e : ParserEffect s t) : t.proto = s.proto := by
  cases e with
  | header => exact writeHeader_proto ..
  | none | emit | stop => rfl

/-- A host access sets `PROTO` or leaves it (R42, R190). -/
theorem HostEffect.proto_sticky {s t : State} {a : HostAccess} (e : HostEffect s a t) (h : s.proto = true) :
    t.proto = true := by
  by_cases hr : accessRejected s a
  · rw [e.eq_rejectAccess hr, rejectAccess_proto]
  · rw [e.proto_eq hr, h]

theorem TurnEffect.proto_sticky {s t : State} {u : Turn} (e : TurnEffect s u t) (hu : u ≠ .reset)
    (h : s.proto = true) : t.proto = true := by
  cases e with
  | parser e => rw [e.proto_eq, h]
  | host e => exact e.proto_sticky h
  | label => exact h
  | reset => exact absurd rfl hu

theorem accessRejected_withSchedule (s : State) (turns : List Turn) (a : HostAccess) :
    accessRejected { s with schedule := turns } a ↔ accessRejected s a := by
  cases a <;> rfl

/-- A step with an access scheduled runs the host's turn. -/
theorem step_host (s : State) (a : HostAccess) (rest : List Turn) :
    step { s with schedule := .host a :: rest } = hostTurn a { s with schedule := rest } :=
  step_withSchedule_cons s (.host a) rest

theorem step_host_of_accessRejected {s : State} {a : HostAccess} (h : accessRejected s a) (rest : List Turn) :
    step { s with schedule := .host a :: rest } = .next { s with schedule := rest, proto := true } :=
  (step_host s a rest).trans (hostTurn_of_accessRejected ((accessRejected_withSchedule s rest a).mpr h))

/-- Settles O44: no command and no read is such a write, so it is a rejected access. -/
theorem otherRegisterWritesAreRejected : Obligations.OtherRegisterWritesAreRejected :=
  fun k v s rest h0 h2 => step_host_of_accessRejected (by simp [accessRejected, h0, h2]) rest

/-- Settles O45, by what a host access and any other turn can do to `PROTO`. -/
theorem rejectedAccessChangesProtoAlone : Obligations.RejectedAccessChangesProtoAlone := by
  refine ⟨fun a s rest => ⟨fun hr => step_host_of_accessRejected hr rest, fun hr => ?_⟩, fun s t h hp hr => ?_⟩
  · obtain ⟨t, ht, e⟩ := hostTurn_effect a { s with schedule := rest }
    exact ⟨t, (step_host s a rest).trans ht, e.proto_eq (mt (accessRejected_withSchedule s rest a).mp hr)⟩
  · rcases step_effect h with ⟨_, e⟩ | ⟨u, rest, hs, e⟩
    · rw [e.proto_eq, hp]
    · rw [hs, List.head?_cons, ne_eq, Option.some.injEq] at hr
      exact e.proto_sticky hr hp

end Sys2Proof.Machine
end

section
/-! PROOF. O51 and O54: what leaves an ended run (R192, R250), and what disturbs a run (R193). A state's host side is
what `runView` leaves out of it; the parser's turn commutes with exchanging it. -/

namespace Sys2Proof.Machine

/-! ### Ended runs -/

theorem runEnded_iff {s : State} : runEnded s = true ↔ s.phase = .done ∨ s.phase = .error := by
  simp [runEnded]

theorem runEnded_phase_ne {s : State} (h : runEnded s = true) :
    s.phase ≠ .idle ∧ s.phase ≠ .hdr ∧ s.phase ≠ .ies := by
  rcases runEnded_iff.mp h with hp | hp <;> simp [hp]

theorem ieEnabled_of_runEnded {s : State} (h : runEnded s = true) : ieEnabled s = false := by
  obtain ⟨_, _, hies⟩ := runEnded_phase_ne h
  exact Bool.eq_false_iff.mpr fun he => hies (ieEnabled_iff.mp he).1

theorem parserFetch_of_runEnded {s : State} (h : runEnded s = true) : parserFetch s = .notEnabled := by
  obtain ⟨_, hhdr, _⟩ := runEnded_phase_ne h
  exact ParserFetches.eq (.notEnabled hhdr (ieEnabled_of_runEnded h))

theorem parserTurn_of_runEnded {s : State} (h : runEnded s = true) : parserTurn s = .next s := by
  obtain ⟨_, hhdr, _⟩ := runEnded_phase_ne h
  exact parserTurn_notEnabled hhdr (ieEnabled_of_runEnded h)

theorem ParserEffect.phase_of_runEnded {s t : State} (e : ParserEffect s t) (h : runEnded s = true) :
    t.phase = s.phase := by
  obtain ⟨_, hhdr, hies⟩ := runEnded_phase_ne h
  cases e with
  | none => rfl
  | header f hp => exact absurd hp hhdr
  | emit => rfl
  | stop hp => exact absurd hp hies

theorem HostEffect.phase_of_runEnded {s t : State} {a : HostAccess} (e : HostEffect s a t) (h : runEnded s = true)
    (ha : ¬ isClear a) : t.phase = s.phase := by
  obtain ⟨hidle, _⟩ := runEnded_phase_ne h
  cases e with
  | start _ hp => exact absurd hp hidle
  | clear hv => exact absurd ⟨rfl, hv⟩ ha
  | reject | nop | take | load | setlen | readRegister | readBuffer => rfl

/-- Settles O51: what the parser and the host can do where neither `START` nor a parser step is enabled. -/
theorem endedRunStaysEnded : Obligations.EndedRunStaysEnded := by
  intro s h
  refine ⟨parserFetch_of_runEnded h,
    (step_withSchedule_nil s).trans (parserTurn_of_runEnded (s := { s with schedule := [] }) h), fun t hs hr ha => ?_⟩
  rcases step_effect hs with ⟨_, e⟩ | ⟨u, rest, hu, e⟩
  · exact e.phase_of_runEnded h
  · rw [hu, List.head?_cons] at hr ha
    cases e with
    | parser e => exact e.phase_of_runEnded h
    | host e => exact e.phase_of_runEnded h (ha _ rfl)
    | label => rfl
    | reset => exact absurd rfl hr

/-! ### Accesses during a run -/

/-- Outside IDLE the accesses that change the run are `CLEAR` and an accepted `NEXT` (R190, R193). -/
theorem HostEffect.runView_eq {s t : State} {a : HostAccess} (e : HostEffect s a t) (hp : s.phase ≠ .idle)
    (hclear : ¬ isClear a) (hnext : isNext a → s.ieValid = false) : runView t = runView s := by
  cases e with
  | start _ hi | load hi | setlen hi => exact absurd hi hp
  | take hv hr => exact absurd (hnext ⟨rfl, hv⟩) (by simp [hr])
  | clear hv => exact absurd ⟨rfl, hv⟩ hclear
  | reject | nop | readRegister | readBuffer => rfl

/-! ### The parser's turn and the host's side -/

/-- The run of `s` with the host's side of `u`: `PROTO`, the ports' answers and the turns to come, which are all that
`runView` leaves out (`runView_withHostSide`, `eq_withHostSide_of_runView_eq`). -/
def withHostSide (u s : State) : State :=
  { s with proto := u.proto, regData := u.regData, bufData := u.bufData, schedule := u.schedule }

theorem runView_withHostSide (u s : State) : runView (withHostSide u s) = runView s := rfl

theorem eq_withHostSide_of_runView_eq {s u : State} (h : runView s = runView u) : u = withHostSide u s := by
  change withHostSide u (runView u) = withHostSide u (runView s)
  rw [h]

theorem datagram_eq {s t : State} (hd : t.dlen = s.dlen) (hb : t.buf = s.buf) (he : t.epoch = s.epoch) :
    datagram t = datagram s := by
  rw [datagram, datagram, hd, bufBytes_congr hb he]

theorem writeHeader_withHostSide (r : HeaderResult) (u s : State) :
    writeHeader r (withHostSide u s) = withHostSide u (writeHeader r s) := by
  cases r <;> rfl

/-- `IESTEP` on a mini-header inside the datagram emits the record at `OFF` or stops (R132). -/
theorem parserTurn_element_eq {s : State} (hp : s.phase = .ies) (hv : s.ieValid = false)
    (h5 : 5 ≤ s.endOff.toNat - s.off.toNat) (hd : s.off.toNat + 5 ≤ s.dlen.toNat) :
    parserTurn s =
      if (recordAtOff s).length.toNat ≤ s.endOff.toNat - s.off.toNat - 5 then .next (emitAtOff s)
      else .next (stopExtraction s) :=
  (parserTurn_element hp hv h5 hd).trans (execIe_eq _ _ _ hp hv h5)

/-- No parser step reads or writes the host's side. -/
theorem parserTurn_withHostSide {s t : State} (u : State) (h : parserTurn s = .next t) :
    parserTurn (withHostSide u s) = .next (withHostSide u t) := by
  by_cases hp : s.phase = .hdr
  · have header : parserTurn (withHostSide u s) = _ := parserTurn_decodeHeader hp
    rw [parserTurn_decodeHeader hp] at h
    cases h
    rw [header, writeHeader_withHostSide, datagram_eq (s := s) (t := withHostSide u s) rfl rfl rfl]
  · cases parserTurn_effect h with
    | none _ he => exact parserTurn_notEnabled (s := withHostSide u s) hp he
    | header f hp' => exact absurd hp' hp
    | emit b4 l t hi hv h5 hl hd ht hlen hb =>
      subst ht hlen hb
      exact (parserTurn_element_eq (s := withHostSide u s) hi hv h5 hd).trans (if_pos hl)
    | stop hi hv hend =>
      rcases hend with h5 | ⟨h5, hd, hl⟩
      · exact parserTurn_noHeader (s := withHostSide u s) hi hv h5
      · exact (parserTurn_element_eq (s := withHostSide u s) hi hv h5 hd).trans (if_neg (Nat.not_le.mpr hl))

/-- Settles O54, by what an access can do outside IDLE and by exchanging the host's side before the parser's turn. -/
theorem interleavedAccessesDoNotDisturbARun : Obligations.InterleavedAccessesDoNotDisturbARun := by
  refine ⟨fun s t a rest hp hclear hnext h => ?_, fun s u t hview h => ?_⟩
  · obtain ⟨t', ht, e⟩ := hostTurn_effect a { s with schedule := rest }
    cases ht.symm.trans ((step_host s a rest).symm.trans h)
    exact e.runView_eq hp hclear hnext
  · refine ⟨withHostSide u t, ?_, (runView_withHostSide u t).symm⟩
    rw [eq_withHostSide_of_runView_eq hview]
    exact parserTurn_withHostSide u h

end Sys2Proof.Machine
end

section
/-! PROOF. O28, O52 and O53: a run is a function of the datagram (R193). The header step leaves what `DecodeHeader` of
the datagram writes (`afterHeader`), and the records seen from there are those of the payload it delimits
(`takeAllRecords_afterHeader`). `CLEAR` and `START` keep the datagram (R194); `LOAD`s, `SETLEN` and `START` make it
(R191), cut to 65536 bytes, which `DecodeHeader` does not notice (R283). -/

namespace Sys2Proof.Machine

/-! ### Turns taken one at a time -/

theorem takeTurn_of_afterTurn {u : Turn} {s t : State} (h : afterTurn u s = some t) :
    takeTurn u { s with schedule := [] } = .next t := by
  unfold afterTurn at h
  rw [step_withSchedule_cons] at h
  split at h
  next e => rw [e, Option.some.inj h]
  next => cases h

theorem afterTurn_inv {u : Turn} {s t : State} (inv : s.Inv) (h : afterTurn u s = some t) : t.Inv :=
  (takeTurn_effect (takeTurn_of_afterTurn h)).inv (inv_of_runView_eq inv rfl)

theorem DatagramEffect.datagram_eq {s t : State} {u : Option Turn} (e : DatagramEffect s u t)
    (hload : ∀ a b, u ≠ some (.host (.bufWrite a b))) (hlen : ∀ v, u ≠ some (.host (.regWrite 0x02 v))) :
    datagram t = datagram s := by
  cases e with
  | same hd hb he => exact Machine.datagram_eq hd hb he
  | load hu => exact absurd hu (hload _ _)
  | setlen hu => exact absurd hu (hlen _)

/-- Neither the parser nor a command changes the datagram (R72). -/
theorem afterTurn_datagram {u : Turn} {s t : State} (h : afterTurn u s = some t)
    (hu : u = .parser ∨ ∃ v, u = .host (.regWrite 0x00 v)) : datagram t = datagram s := by
  have e := (takeTurn_effect (takeTurn_of_afterTurn h)).datagram
  rw [← datagram_withSchedule s []]
  rcases hu with rfl | ⟨v, rfl⟩
  · exact (e nofun).datagram_eq nofun nofun
  · exact (e nofun).datagram_eq nofun nofun

theorem afterTurn_load {s : State} (hp : s.phase = .idle) (a : BitVec 16) (b : Byte) :
    afterTurn (.host (.bufWrite a b)) s = some (memWrite a b { s with schedule := [] }) :=
  afterTurn_of_takeTurn (if_pos hp)

theorem afterTurn_setlen {s : State} (hp : s.phase = .idle) {n : PortData} (hn : n.toNat ≤ 65536) :
    afterTurn (.host (.regWrite 0x02 n)) s = some (setDlen n.toNat { s with schedule := [] }) :=
  afterTurn_of_takeTurn (if_pos ⟨hp, hn⟩)

theorem afterTurn_start {s : State} (hp : s.phase = .idle) :
    afterTurn (.host (.regWrite 0x00 1)) s = some (beginRun { s with schedule := [] }) := by
  refine afterTurn_of_takeTurn ?_
  rw [takeTurn, hostTurn_of_decode (i := .start 1) rfl]
  exact if_pos hp

theorem afterTurn_clear (s : State) :
    afterTurn (.host (.regWrite 0x00 3)) s = some (clearRun { s with schedule := [] }) := by
  refine afterTurn_of_takeTurn ?_
  rw [takeTurn, hostTurn_of_decode (i := .clear 3) rfl]
  rfl

/-- What the parser's turn and `NEXT` keep, a host that takes the records keeps. -/
theorem takeAllRecords_keeps {P : State → Prop} (parser : ∀ s t, P s → afterTurn .parser s = some t → P t)
    (next : ∀ s t, P s → afterTurn (.host (.regWrite 0x00 2)) s = some t → P t) (n : Nat) {s : State} (h : P s) :
    P (takeAllRecords n s).2 := by
  induction n generalizing s with
  | zero => exact h
  | succ n ih =>
    rw [takeAllRecords]
    split
    · exact h
    next s₁ h₁ =>
      have p₁ := parser _ _ h h₁
      split
      · exact p₁
      · split
        · exact p₁
        next s₂ h₂ => exact ih (next _ _ p₁ h₂)

theorem takeAllRecords_inv (n : Nat) {s : State} (inv : s.Inv) : (takeAllRecords n s).2.Inv :=
  takeAllRecords_keeps (fun _ _ => afterTurn_inv) (fun _ _ => afterTurn_inv) n inv

theorem takeAllRecords_datagram (n : Nat) (s : State) : datagram (takeAllRecords n s).2 = datagram s :=
  takeAllRecords_keeps (P := fun t => datagram t = datagram s)
    (fun _ _ h ht => (afterTurn_datagram ht (.inl rfl)).trans h)
    (fun _ _ h ht => (afterTurn_datagram ht (.inr ⟨2, rfl⟩)).trans h) n rfl

/-- In an ended run no record is presented (R52(d), R52(f)). -/
theorem ieValid_of_runEnded {s : State} (inv : s.Inv) (h : runEnded s = true) : s.ieValid = false := by
  rcases runEnded_iff.mp h with hp | hp
  · exact (inv.ended hp).1
  · obtain ⟨_, _, _, _, hv, _⟩ := inv.inError hp
    exact hv

/-- In an ended run the host sees no record, and the run stays where it is (R192). -/
theorem takeAllRecords_of_runEnded {s : State} (inv : s.Inv) (h : runEnded s = true) (n : Nat) :
    (takeAllRecords n s).1 = [] ∧ (takeAllRecords n s).2.phase = s.phase := by
  cases n with
  | zero => exact ⟨rfl, rfl⟩
  | succ n =>
    have parser : afterTurn .parser s = some { s with schedule := [] } :=
      afterTurn_of_takeTurn (parserTurn_of_runEnded (s := { s with schedule := [] }) h)
    have view : recordView { s with schedule := [] } = none :=
      if_neg (Bool.eq_false_iff.mp (ieValid_of_runEnded inv h))
    simp only [takeAllRecords, parser, view, and_self]

/-! ### The header step of a run -/

/-- The state that the header step of a run leaves. -/
def afterHeader (s : State) : State :=
  writeHeader (decodeHeader Config.lenBias (datagram s)) { s with schedule := [] }

theorem afterTurn_parser_hdr {s : State} (hp : s.phase = .hdr) : afterTurn .parser s = some (afterHeader s) := by
  rw [afterTurn, step_parser_decodeHeader [] hp, afterHeader]

theorem afterHeader_inv {s : State} (inv : s.Inv) (hp : s.phase = .hdr) : (afterHeader s).Inv :=
  afterTurn_inv inv (afterTurn_parser_hdr hp)

/-- Each result writes every register of the header result (R112). -/
theorem headerView_writeHeader_congr (r : HeaderResult) (s u : State) :
    headerView (writeHeader r s) = headerView (writeHeader r u) := by
  cases r <;> rfl

/-- The results of `DecodeHeader` (R110, R111), with the fields and the payload's bounds that they carry. -/
theorem decodeHeader_cases (d : List Byte) :
    (∃ c, decodeHeader Config.lenBias d = .invalid c) ∨
    decodeHeader Config.lenBias d = .badLength (headerFields d) ∨
    decodeHeader Config.lenBias d = .ok (headerFields d) (headerFields d).hlen
      (min (headerFields d).length.toNat d.length) (decide (d.length < (headerFields d).length.toNat)) := by
  rw [decodeHeader_eq_judgeHeader]
  rcases judgeHeader_cases Config.lenBias d.length (headerFields d) with
    ⟨_, r⟩ | ⟨_, _, _, r⟩ | ⟨_, _, _, r⟩ | ⟨_, _, _, r⟩
  · exact .inl ⟨_, r⟩
  · exact .inl ⟨_, r⟩
  · exact .inr (.inl r)
  · exact .inr (.inr r)

/-- The payload reaches from the header's end to the smaller of the length field and the datagram's size. -/
theorem decodeHeader_ok_bounds {d : List Byte} {f : HeaderFields} {o e : Nat} {c : Bool}
    (h : decodeHeader Config.lenBias d = .ok f o e c) :
    f.Shaped ∧ o = f.hlen ∧ e = min f.length.toNat d.length := by
  rcases decodeHeader_cases d with ⟨_, r⟩ | r | r <;> cases r.symm.trans h
  exact ⟨headerFields_shaped d, rfl, rfl⟩

theorem decodeHeader_badLength_shaped {d : List Byte} {f : HeaderFields}
    (h : decodeHeader Config.lenBias d = .badLength f) : f.Shaped := by
  rcases decodeHeader_cases d with ⟨_, r⟩ | r | r <;> cases r.symm.trans h
  exact headerFields_shaped d

/-- `H_HLEN` holds the header length exactly (R32). -/
theorem HeaderFields.Shaped.hHlen_toNat_eq {f : HeaderFields} (hf : f.Shaped) :
    (BitVec.ofNat 5 f.hlen).toNat = f.hlen := by
  rw [hf.hHlen_toNat, hf.hlen, hdrLen_eq]

/-- A valid header's registers hold the payload's offsets and its size exactly (R112, R163). -/
theorem writeHeader_ok_toNat {f : HeaderFields} (hf : f.Shaped) {e : Nat} (he : e ≤ 65535) (c : Bool) (s : State) :
    (writeHeader (.ok f f.hlen e c) s).hHlen.toNat = f.hlen ∧ (writeHeader (.ok f f.hlen e c) s).off.toNat = f.hlen ∧
      (writeHeader (.ok f f.hlen e c) s).endOff.toNat = e ∧
      (writeHeader (.ok f f.hlen e c) s).pLen.toNat = e - f.hlen := by
  have hlen : f.hlen = 8 + 8 * f.s.toNat := by rw [hf.hlen, hdrLen_eq]
  refine ⟨hf.hHlen_toNat_eq, (writeHeader_ok_off_toNat hf e c s).trans hlen.symm,
    Nat.mod_eq_of_lt ?_, Nat.mod_eq_of_lt ?_⟩
  · omega
  · rw [payloadLen_eq]
    omega

theorem afterHeader_ok {s : State} {f : HeaderFields} {o e : Nat} {c : Bool} (inv : s.Inv) (hp : s.phase = .hdr)
    (h : decodeHeader Config.lenBias (datagram s) = .ok f o e c) :
    AwaitsRecord (afterHeader s) ∧ (afterHeader s).hHlen.toNat = f.hlen ∧ (afterHeader s).off.toNat = o ∧
      (afterHeader s).endOff.toNat = e ∧ (afterHeader s).pLen.toNat = e - o ∧ o = f.hlen ∧ e ≤ s.dlen.toNat ∧
      e ≤ 65535 := by
  obtain ⟨shaped, ho, he⟩ := decodeHeader_ok_bounds h
  have width := f.length.isLt
  rw [datagram_length] at he
  have after : afterHeader s = writeHeader (.ok f o e c) { s with schedule := [] } := by rw [afterHeader, h]
  obtain ⟨_, _, _, _, hv, _⟩ := inv.beforeHeader (.inr hp)
  have awaits : AwaitsRecord (afterHeader s) := ⟨afterHeader_inv inv hp, by rw [after]; rfl, by rw [after]; exact hv⟩
  subst ho
  obtain ⟨h₁, h₂, h₃, h₄⟩ := writeHeader_ok_toNat shaped (by omega : e ≤ 65535) c { s with schedule := [] }
  rw [← after] at h₁ h₂ h₃ h₄
  exact ⟨awaits, h₁, h₂, h₃, h₄, rfl, by omega, by omega⟩

/-- The payload in `BUF` is the slice of the datagram that `DecodeHeader` delimits (R50, R110). -/
theorem payload_afterHeader {s : State} {f : HeaderFields} {o e : Nat} {c : Bool} (inv : s.Inv) (hp : s.phase = .hdr)
    (h : decodeHeader Config.lenBias (datagram s) = .ok f o e c) :
    payload (afterHeader s) = slice (datagram s) o e := by
  obtain ⟨_, hhlen, _, hend, _, ho, hle, _⟩ := afterHeader_ok inv hp h
  have buf : (afterHeader s).buf = s.buf := writeHeader_buf ..
  have epoch : (afterHeader s).epoch = s.epoch := writeHeader_epoch ..
  rw [payload, hhlen, hend, ← ho, bufBytes_congr buf epoch, datagram, bufBytes_slice _ _ _ _ _ hle, Nat.zero_add]

theorem afterHeader_error_of_not_ok {s : State} {r : HeaderResult}
    (h : decodeHeader Config.lenBias (datagram s) = r) (hr : payloadOf (datagram s) r = none) :
    (afterHeader s).phase = .error := by
  rw [afterHeader, h]
  cases r with
  | ok => cases hr
  | badLength | invalid => rfl

/-- The records that a host sees of a datagram in at most `n` rounds, by the reference decoders (R110, R130). -/
def recordsSeen (n : Nat) (d : List Byte) : List IeRecord :=
  match payloadOf d (decodeHeader Config.lenBias d) with
  | some p => decodeLoop p n 0
  | none => []

theorem takeAllRecords_afterHeader {s : State} (inv : s.Inv) (hp : s.phase = .hdr) (n : Nat) :
    (takeAllRecords n (afterHeader s)).1 = recordsSeen n (datagram s) := by
  rw [recordsSeen]
  generalize h : decodeHeader Config.lenBias (datagram s) = r
  cases r with
  | ok f o e c =>
    obtain ⟨awaits, hhlen, hoff, _, _, ho, _⟩ := afterHeader_ok inv hp h
    rw [takeAllRecords_records awaits, payload_afterHeader inv hp h, hhlen, hoff, ho, Nat.sub_self]
    rfl
  | badLength | invalid =>
    have error := afterHeader_error_of_not_ok h rfl
    exact (takeAllRecords_of_runEnded (afterHeader_inv inv hp) (runEnded_iff.mpr (.inr error)) n).1

/-- Settles O52: both the header result and the records are functions of the datagram. -/
theorem runDependsOnTheDatagramAlone : Obligations.RunDependsOnTheDatagramAlone := by
  intro s u s' u' invs invu hps hpu hd hs hu
  cases (afterTurn_parser_hdr hps).symm.trans hs
  cases (afterTurn_parser_hdr hpu).symm.trans hu
  refine ⟨?_, fun n => ?_⟩
  · rw [afterHeader, afterHeader, hd]
    exact headerView_writeHeader_congr ..
  · rw [takeAllRecords_afterHeader invs hps, takeAllRecords_afterHeader invu hpu, hd]

/-- Settles O53: neither the run nor `CLEAR` nor `START` changes the datagram, on which the second run depends alone. -/
theorem clearThenStartRunsTheSameAgain : Obligations.ClearThenStartRunsTheSameAgain := by
  intro s p c h q n inv hp hsp hc hh hq
  have ended : (takeAllRecords n p).2.Inv := takeAllRecords_inv n (afterTurn_inv inv hsp)
  have idle : c.phase = .idle := by
    cases (afterTurn_clear _).symm.trans hc
    rfl
  have hdr : h.phase = .hdr := by
    cases (afterTurn_start idle).symm.trans hh
    rfl
  have datagrams : datagram h = datagram s :=
    calc datagram h = datagram c := afterTurn_datagram hh (.inr ⟨1, rfl⟩)
      _ = datagram (takeAllRecords n p).2 := afterTurn_datagram hc (.inr ⟨3, rfl⟩)
      _ = datagram p := takeAllRecords_datagram n p
      _ = datagram s := afterTurn_datagram hsp (.inl rfl)
  exact runDependsOnTheDatagramAlone h s q p (afterTurn_inv (afterTurn_inv ended hc) hh) inv hdr hp datagrams hq hsp

/-! ### Loading a datagram -/

theorem afterTurns_append (ts us : List Turn) (s : State) :
    afterTurns (ts ++ us) s = (afterTurns ts s).bind (afterTurns us) := by
  induction ts generalizing s with
  | nil => rfl
  | cons u ts ih =>
    rw [List.cons_append, afterTurns, afterTurns]
    cases afterTurn u s with
    | none => rfl
    | some t => exact ih t

theorem bufBytes_succ (s : State) (a n : Nat) : bufBytes s a (n + 1) = bufBytes s a n ++ [bufByte s (a + n)] := by
  induction n generalizing a with
  | zero => rfl
  | succ n ih =>
    rw [bufBytes, ih, bufBytes, List.cons_append, Nat.add_right_comm a 1 n]
    rfl

/-- A `LOAD` behind the bytes already there puts its byte behind them. -/
theorem bufBytes_memWrite_end {a : BitVec 16} (b : Byte) (s : State) :
    bufBytes (memWrite a b s) 0 (a.toNat + 1) = bufBytes s 0 a.toNat ++ [b] := by
  rw [bufBytes_succ, Nat.zero_add, bufByte_memWrite_same,
    bufBytes_eq_of_forall (t := s) _ fun x hx => bufByte_memWrite_other a b s (by omega)]

/-- `LOAD`s one after another put their bytes one after another, behind what stands below (R191). -/
theorem afterTurns_loadTurns {bs : List Byte} {a : Nat} {s : State} (hfit : a + bs.length ≤ 65536) (inv : s.Inv)
    (hp : s.phase = .idle) :
    ∃ t, afterTurns (loadTurns a bs) s = some t ∧ t.Inv ∧ t.phase = .idle ∧
      bufBytes t 0 (a + bs.length) = bufBytes s 0 a ++ bs := by
  induction bs generalizing a s with
  | nil => exact ⟨s, rfl, inv, hp, (List.append_nil _).symm⟩
  | cons b bs ih =>
    rw [List.length_cons] at hfit
    have offset : (BitVec.ofNat 16 a).toNat = a := Nat.mod_eq_of_lt (by omega)
    have load := afterTurn_load hp (BitVec.ofNat 16 a) b
    have bytes := bufBytes_memWrite_end (a := BitVec.ofNat 16 a) b { s with schedule := [] }
    rw [offset, bufBytes_congr (s := { s with schedule := [] }) (t := s) rfl rfl] at bytes
    obtain ⟨t, ht, tinv, tp, tbytes⟩ := ih (a := a + 1) (by omega) (afterTurn_inv inv load) hp
    refine ⟨t, ?_, tinv, tp, ?_⟩
    · rw [loadTurns, afterTurns, load]
      exact ht
    · rw [bytes] at tbytes
      rw [List.length_cons, Nat.add_comm bs.length 1, ← Nat.add_assoc, tbytes, List.append_assoc]
      rfl

theorem datagram_setDlen {n : Nat} (hn : n ≤ 65536) (s : State) : datagram (setDlen n s) = bufBytes s 0 n := by
  rw [datagram, setDlen_dlen_toNat hn, bufBytes_congr (setDlen_buf n s) (setDlen_epoch n s)]

/-- The opening of a run leaves it before its header step, with the datagram in `BUF` (R191). -/
theorem afterTurns_openingTurns (d : List Byte) {s : State} (inv : s.Inv) (hp : s.phase = .idle) :
    ∃ h, afterTurns (openingTurns d) s = some h ∧ h.Inv ∧ h.phase = .hdr ∧ datagram h = d.take 65536 := by
  have size : (d.take 65536).length ≤ 65536 := List.length_take_le ..
  obtain ⟨t, ht, tinv, tp, tbytes⟩ :=
    afterTurns_loadTurns (bs := d.take 65536) (a := 0) (by rwa [Nat.zero_add]) inv hp
  rw [Nat.zero_add, bufBytes, List.nil_append] at tbytes
  have width : (BitVec.ofNat 64 (d.take 65536).length).toNat = (d.take 65536).length := Nat.mod_eq_of_lt (by omega)
  have setlen := afterTurn_setlen tp (n := BitVec.ofNat 64 (d.take 65536).length) (by rwa [width])
  rw [width] at setlen
  have start := afterTurn_start (s := setDlen (d.take 65536).length { t with schedule := [] }) tp
  refine ⟨_, ?_, afterTurn_inv (afterTurn_inv tinv setlen) start, rfl, ?_⟩
  · rw [openingTurns, afterTurns_append, ht]
    simp only [Option.bind_some, afterTurns, setlen, start]
  · rw [afterTurn_datagram start (.inr ⟨1, rfl⟩), datagram_setDlen size,
      bufBytes_congr (s := { t with schedule := [] }) (t := t) rfl rfl, tbytes]

/-! ### A datagram cut to the buffer's size -/

theorem byteAt_take {n o : Nat} (h : o < n) (d : List Byte) : byteAt (d.take n) o = byteAt d o := by
  rw [byteAt, byteAt, List.getD_eq_getElem?_getD, List.getD_eq_getElem?_getD, List.getElem?_take_of_lt h]

theorem headerFields_take {n : Nat} (h : 16 ≤ n) (d : List Byte) : headerFields (d.take n) = headerFields d := by
  have read {o : Nat} (ho : o < 16) : byteAt (d.take n) o = byteAt d o := byteAt_take (by omega) d
  simp [headerFields, be16At, be24At, be64At, read]

/-- Where the length field stays inside the datagram, the datagram's size does not matter. -/
theorem judgeHeader_of_length_le {n : Nat} {f : HeaderFields} (h16 : 16 ≤ n) (hl : f.length.toNat ≤ n) :
    judgeHeader Config.lenBias n f =
      if badLen Config.lenBias f.length.toNat f.hlen then .badLength f else .ok f f.hlen f.length.toNat false := by
  have not8 : short8 n = false := short8_false_iff.mpr (by omega)
  have not16 : short16 n f.s = false := short16_false_iff.mpr fun _ => h16
  have inside : clamped Config.lenBias f.length.toNat n = false := decide_eq_false (Nat.not_lt.mpr hl)
  simp only [judgeHeader, not8, not16, inside, payloadEnd_eq, Nat.add_zero, Nat.min_eq_left hl,
    Bool.false_eq_true, if_false]

/-- A length field is below 65536, so the bytes from there on are not looked at (R283). -/
theorem decodeHeader_take (d : List Byte) :
    decodeHeader Config.lenBias (d.take 65536) = decodeHeader Config.lenBias d := by
  rcases Nat.le_total d.length 65536 with hd | hd
  · rw [List.take_of_length_le hd]
  · have width := (headerFields d).length.isLt
    have cut : (d.take 65536).length = 65536 := List.length_take_of_le hd
    rw [decodeHeader_eq_judgeHeader, decodeHeader_eq_judgeHeader, headerFields_take (by decide),
      judgeHeader_of_length_le (by omega) (by omega), judgeHeader_of_length_le (by omega) (by omega)]

theorem slice_take {n b : Nat} (h : b ≤ n) (d : List Byte) (a : Nat) : slice (d.take n) a b = slice d a b := by
  rw [slice, slice, List.take_take, Nat.min_eq_left h]

/-- Settles O28: the opening leaves the datagram in `BUF`, cut to 65536 bytes; the header step gives `DecodeHeader` of
it, and the records are those of its payload. -/
theorem datagramComesThroughToItsRecords : Obligations.DatagramComesThroughToItsRecords := by
  intro d s inv hp
  obtain ⟨h, opened, hinv, hhdr, loaded⟩ := afterTurns_openingTurns d inv hp
  have decoded := decodeHeader_take d
  rw [← loaded] at decoded
  refine ⟨h, afterHeader h, opened, loaded, afterTurn_parser_hdr hhdr, ?_⟩
  generalize decodeHeader Config.lenBias d = r at decoded ⊢
  have after : afterHeader h = writeHeader r { h with schedule := [] } := by rw [afterHeader, decoded]
  have ended (error : (afterHeader h).phase = .error) : (takeAllRecords 13106 (afterHeader h)).1 = [] ∧
      (takeAllRecords 13106 (afterHeader h)).2.phase = .error := by
    have rounds := takeAllRecords_of_runEnded (afterHeader_inv hinv hhdr) (runEnded_iff.mpr (.inr error)) 13106
    rwa [error] at rounds
  cases r with
  | ok f o e c =>
    obtain ⟨awaits, hhlen, hoff, hend, hplen, ho, _, hle⟩ := afterHeader_ok hinv hhdr decoded
    have count : (afterHeader h).ieCount = 0 := by rw [after]; rfl
    obtain ⟨records, done, _⟩ :=
      hostSeesExactlyDecodeAll _ awaits.inv awaits.phase awaits.noRecord (by rw [hoff, hhlen, ho]) count
    rw [payload_afterHeader hinv hhdr decoded, loaded, slice_take (by omega)] at records
    exact ⟨by rw [after]; rfl, hhlen, hoff, hend, hplen, awaits.phase, records, done⟩
  | badLength f =>
    have error := afterHeader_error_of_not_ok decoded rfl
    have hhlen := (decodeHeader_badLength_shaped decoded).hHlen_toNat_eq
    exact ⟨by rw [after]; rfl, by rw [after]; exact hhlen, error, ended error⟩
  | invalid c =>
    have error := afterHeader_error_of_not_ok decoded rfl
    obtain ⟨_, _, _, noMessage⟩ := writeHeader_invalid_noMessage c { h with schedule := [] }
    exact ⟨by rw [after]; rfl, by rw [after]; exact noMessage, error, ended error⟩

end Sys2Proof.Machine
end

section
/-! PROOF. O33: at `LEN_BIAS` 4 the 4 bytes that the encoder's length field leaves uncounted (R202) are added back (D16),
so the length field with the bias is the size of header and payload. -/

namespace Sys2Proof.Machine

theorem slice_behind_prefix (q p : List Byte) : slice (q ++ p) q.length (q ++ p).length = p := by
  rw [slice, List.take_length, List.drop_left]

/-- Where the length field with the bias counts the datagram exactly, its payload reaches to the datagram's end. -/
theorem judgeHeader_of_exact_length {bias n : Nat} {f : HeaderFields} (hfit : hdrLen f.s ≤ n) (hlen : f.hlen ≤ n)
    (h : f.length.toNat + bias = n) : judgeHeader bias n f = .ok f f.hlen n false := by
  have inside : clamped bias f.length.toNat n = false := decide_eq_false (Nat.not_lt.mpr h.le)
  rw [judgeHeader_ok hfit (by omega), inside, payloadEnd_eq, h, Nat.min_self]

/-- At `LEN_BIAS` 4 an encoded header delimits all that follows it, where that is as long as the encoder was told. -/
theorem decodeHeader_four_of_encodeHeader {mtype : Byte} {plen : BitVec 16} {seq : BitVec 24}
    {seid : Option (BitVec 64)} {hdr pay : List Byte} (h : encodeHeader mtype plen seq seid = some hdr)
    (hpay : pay.length = plen.toNat) :
    decodeHeader 4 (hdr ++ pay) =
      .ok (encodedFields mtype plen seq seid) hdr.length (hdr ++ pay).length false := by
  obtain ⟨fits, hhdr, _⟩ := encodeHeader_eq_some h
  have whole : hdrLen seid.isSome ≤ (hdr ++ pay).length := by
    rw [List.length_append, hhdr]
    exact Nat.le_add_right ..
  have exact_length : (encodedFields mtype plen seq seid).length.toNat + 4 = (hdr ++ pay).length := by
    rw [encodedFields_length_toNat mtype seq fits, encodedLength_add_four, List.length_append, hhdr, hpay]
  rw [decodeHeader_of_encodeHeader h, judgeHeader_of_exact_length whole whole exact_length, hhdr]
  rfl

/-- Settles O33: the payload is the slice from the header's end to the datagram's. -/
theorem lenBiasFourReturnsThePayloadWhole : Obligations.LenBiasFourReturnsThePayloadWhole := by
  intro mtype plen seq seid hdr pay h hpay
  rw [decodeHeader_four_of_encodeHeader h hpay]
  exact ⟨congrArg some (slice_behind_prefix hdr pay), _, _, _, rfl⟩

end Sys2Proof.Machine
end

section
/-! PROOF. O15 and O16: the malformed results of the header step (R241 to R244). Each is the header step's verdict on the
datagram's size and the header's length (R248), written to the registers: BADLEN with the fields, SHORT8 and SHORT16
without any. -/

namespace Sys2Proof.Machine

/-! ### Verdicts on a short datagram -/

theorem judgeHeader_short8 {n : Nat} (h : n < 8) (bias : Nat) (f : HeaderFields) :
    judgeHeader bias n f = .invalid .short8 :=
  if_pos (short8_iff.mpr h)

theorem judgeHeader_short16 {n : Nat} {f : HeaderFields} (h8 : 8 ≤ n) (h : n < 16) (hs : f.s = true) (bias : Nat) :
    judgeHeader bias n f = .invalid .short16 := by
  rw [judgeHeader, if_neg (Bool.eq_false_iff.mp (short8_false_iff.mpr h8)), if_pos (short16_iff.mpr ⟨hs, h⟩)]

/-! ### The header step -/

/-- The header step on a whole header whose length does not cover it reports the fields and no payload (R112, R243). -/
theorem headerStep_badLength {s : State} {f : HeaderFields} (hp : s.phase = .hdr) (hfit : hdrLen f.s ≤ s.dlen.toNat)
    (hl : f.length.toNat < f.hlen) :
    headerStep f s = .next (raiseMalformed .badLen (voidPayload (writeFields f s))) := by
  rw [headerStep_eq f hp, judgeHeader_badLength hfit hl]
  rfl

theorem headerStep_short8 {s : State} (hp : s.phase = .hdr) (h : s.dlen.toNat < 8) (f : HeaderFields) :
    headerStep f s = .next (writeHeader (.invalid .short8) s) := by
  rw [headerStep_eq f hp, judgeHeader_short8 h]

theorem headerStep_short16 {s : State} {f : HeaderFields} (hp : s.phase = .hdr) (h8 : 8 ≤ s.dlen.toNat)
    (h : s.dlen.toNat < 16) (hs : f.s = true) : headerStep f s = .next (writeHeader (.invalid .short16) s) := by
  rw [headerStep_eq f hp, judgeHeader_short16 h8 h hs]

/-! ### The statements -/

/-- Settles O15: the length field of a whole header is below the header's own size. -/
theorem badLengthKeepsFieldsAndEntersError : Obligations.BadLengthKeepsFieldsAndEntersError := by
  refine ⟨fun flags mtype spare length seq s hp hd hl => ?_, fun flags mtype spare length seid seq s hp hd hl => ?_⟩
  · rw [exec_hdr8_eq, headerStep_badLength (f := fieldsOfHdr8 flags mtype length seq) hp hd hl]
    rfl
  · rw [exec_hdr16_eq, headerStep_badLength (f := fieldsOfHdr16 flags mtype length seid seq) hp hd hl]
    rfl

/-- Settles O16, by `DLEN` below 8 and from 8 to 15: the parser's step finds the datagram short before it has a record,
`exec` finds it by the record's own test, and both write the same result. -/
theorem shortDatagramRaisesItsCause : Obligations.ShortDatagramRaisesItsCause := by
  intro s rest hp
  refine ⟨fun hlt => ⟨?_, fun _ _ _ _ _ => ?_, fun _ _ _ _ _ _ => ?_⟩,
    fun h8 hlt => ⟨fun hs => ?_, fun _ _ _ _ _ _ => ?_⟩⟩
  · exact (step_parser s rest).trans
      (parserTurn_short8 (s := { s with schedule := rest }) hp (short8_iff.mpr hlt))
  · exact headerStep_short8 hp hlt _
  · exact headerStep_short8 hp hlt _
  · exact (step_parser s rest).trans
      (parserTurn_short16 (s := { s with schedule := rest }) hp (short8_false_iff.mpr h8) (short16_iff.mpr ⟨hs, hlt⟩))
  · exact headerStep_short16 hp h8 hlt rfl

end Sys2Proof.Machine
end

section
/-! PROOF. O34: past 65535 bytes a datagram holds nothing that the 16-bit length field can delimit (R283). -/

namespace Sys2Proof.Machine

/-- A payload ends where the 16-bit length field says or before, so the cut is behind it (R283). -/
theorem payloadOf_take_decodeHeader (d : List Byte) :
    payloadOf (d.take 65536) (decodeHeader Config.lenBias d) = payloadOf d (decodeHeader Config.lenBias d) := by
  cases h : decodeHeader Config.lenBias d with
  | ok f o e c =>
    obtain ⟨_, _, he⟩ := decodeHeader_ok_bounds h
    have width := f.length.isLt
    exact congrArg some (slice_take (by omega) d o)
  | badLength f => rfl
  | invalid c => rfl

/-- Settles O34: the cut changes neither the header's result nor the bytes that it delimits. -/
theorem cuttingALongDatagramChangesNoResult : Obligations.CuttingALongDatagramChangesNoResult := by
  intro d _
  have same : decodeHeader 0 (d.take 65536) = decodeHeader 0 d := decodeHeader_take d
  rw [same]
  exact ⟨rfl, payloadOf_take_decodeHeader d⟩

end Sys2Proof.Machine
end

section
/-! PROOF. O50 and O57: an enabled parser step waits through the host's accesses (R290), and taken, it changes the state.
The fetch reads PHASE, `IE_VALID`, the offsets and the datagram, of which a host access during a run can change
`IE_VALID` alone, and that to 0. -/

namespace Sys2Proof.Machine

/-! ### What the fetch reads -/

theorem memRead_congr {s t : State} (hd : s.dlen = t.dlen) (hb : s.buf = t.buf) (he : s.epoch = t.epoch) (a n : Nat) :
    memRead s a n = memRead t a n := by
  rw [memRead, memRead, hd, bufBytes_congr hb he]

theorem fetchHeader_congr {s t : State} (hd : s.dlen = t.dlen) (hb : s.buf = t.buf) (he : s.epoch = t.epoch) :
    fetchHeader s = fetchHeader t := by
  simp only [fetchHeader, hd, bufByte_congr hb he, memRead_congr hd hb he]

theorem fetchElement_congr {s t : State} (hd : s.dlen = t.dlen) (hb : s.buf = t.buf) (he : s.epoch = t.epoch)
    (ho : s.off = t.off) (hend : s.endOff = t.endOff) : fetchElement s = fetchElement t := by
  simp only [fetchElement, ho, hend, memRead_congr hd hb he]

/-! ### Accesses while a step is enabled -/

/-- During a run an access but `CLEAR` keeps the phase, the datagram and the offsets, and presents no record (R190). -/
theorem HostEffect.keeps_run {s t : State} {a : HostAccess} (e : HostEffect s a t) (hp : s.phase ≠ .idle)
    (ha : ¬ isClear a) :
    t.phase = s.phase ∧ t.dlen = s.dlen ∧ t.buf = s.buf ∧ t.epoch = s.epoch ∧ t.off = s.off ∧ t.endOff = s.endOff ∧
      (s.ieValid = false → t.ieValid = false) := by
  cases e with
  | start _ hi | load hi | setlen hi => exact absurd hi hp
  | clear hv => exact absurd ⟨rfl, hv⟩ ha
  | take => exact ⟨rfl, rfl, rfl, rfl, rfl, rfl, fun _ => rfl⟩
  | reject | nop | readRegister | readBuffer => exact ⟨rfl, rfl, rfl, rfl, rfl, rfl, id⟩

theorem busy_phase_ne_idle {s : State} (h : busy s = true) : s.phase ≠ .idle := by
  rcases (busy_iff s).mp h with hp | ⟨hp, _⟩ <;> simp [hp]

/-- Settles O50, by the step that is enabled: what its test and its fetch read stays as it was. -/
theorem enabledParserStepStaysEnabled : Obligations.EnabledParserStepStaysEnabled := by
  intro s a rest hbusy ha
  obtain ⟨t, ht, e⟩ := hostTurn_effect a { s with schedule := rest }
  obtain ⟨hphase, hdlen, hbuf, hepoch, hoff, hend, hvalid⟩ := e.keeps_run (busy_phase_ne_idle hbusy) ha
  refine ⟨t, (step_host s a rest).trans ht, ?_⟩
  rcases (busy_iff s).mp hbusy with hp | ⟨hp, hv⟩
  · have tp : t.phase = .hdr := hphase.trans hp
    rw [parserFetch_of_hdr tp, parserFetch_of_hdr hp]
    exact ⟨(busy_iff t).mpr (.inl tp), fetchHeader_congr hdlen hbuf hepoch⟩
  · have tp : t.phase = .ies := hphase.trans hp
    have tv : t.ieValid = false := hvalid hv
    rw [parserFetch_of_ieEnabled tp tv, parserFetch_of_ieEnabled hp hv]
    exact ⟨(busy_iff t).mpr (.inr ⟨tp, tv⟩), fetchElement_congr hdlen hbuf hepoch hoff hend⟩

/-! ### The parser's own move -/

theorem busy_eq_false_iff {s : State} : busy s = false ↔ s.phase ≠ .hdr ∧ ieEnabled s = false := by
  simp [busy, ieEnabled]

/-- The header step leaves HDR, an emission sets `IE_VALID`, and a stop leaves IES (R112, R132). -/
theorem ParserEffect.ne_of_busy {s t : State} (e : ParserEffect s t) (h : busy s = true) : t ≠ s := by
  intro same
  cases e with
  | none hp he => exact Bool.eq_false_iff.mp (busy_eq_false_iff.mpr ⟨hp, he⟩) h
  | header f hp =>
    have left := writeHeader_phase (judgeHeader Config.lenBias s.dlen.toNat f) s
    simp [same, hp] at left
  | emit b4 l t hp hv => exact absurd ((congrArg State.ieValid same).trans hv) (by simp)
  | stop hp => exact absurd ((congrArg State.phase same).trans hp) (by simp)

/-- Settles O57: where a step is enabled, no effect of the parser's turn is the state itself. -/
theorem emptyScheduleLetsTheParserMove : Obligations.EmptyScheduleLetsTheParserMove := by
  intro s hs
  rw [step_nil hs]
  refine ⟨rfl, fun idle => ?_, fun enabled h => (parserTurn_effect h).ne_of_busy enabled rfl⟩
  obtain ⟨hp, he⟩ := busy_eq_false_iff.mp idle
  exact parserTurn_notEnabled hp he

end Sys2Proof.Machine
end

section
/-! PROOF. O1 and O2: the state of R271, whichever turns are left and however many resets there have been (log entries 2
and 3). -/

namespace Sys2Proof.Machine

/-- R271's table leaves the model's own turns and reset count free. -/
theorem atReset_reset (turns : List Turn) (n : Nat) : atReset { State.reset with schedule := turns, epoch := n } := by
  have unloaded (a : Nat) : bufByte { State.reset with schedule := turns, epoch := n } a = Config.unloadedByte n a := rfl
  obtain ⟨hoff, hend, hvalid, hheader, hrecord, hfields, hcount, herr, hclamp⟩ := reset_resultsClear
  obtain ⟨_, hstatus, _⟩ := statusBitsAndLevelOutputs
  exact ⟨⟨rfl, unloaded⟩, rfl, rfl, hoff, hend, hvalid, hheader, hrecord, hfields, hcount, herr, hclamp, rfl, hstatus,
    rfl, rfl, rfl⟩

/-- Settles O1: reset itself has no turn left and counts no reset event. -/
theorem resetLeavesRuleR271State : Obligations.ResetLeavesRuleR271State := atReset_reset [] 0

/-- Settles O2: the reset event keeps nothing of the state but the turns to come and the count. -/
theorem resetEventGivesResetStateFromAnyState : Obligations.ResetEventGivesResetStateFromAnyState :=
  fun s rest => ⟨resetEvent { s with schedule := rest }, step_withSchedule_cons s .reset rest,
    atReset_reset rest (s.epoch + 1), rfl, rfl⟩

end Sys2Proof.Machine
end
